-- ==== Sys2Proof/Word.lean ====
section
/-! DEFINITION. Words of the EL8-M25: the widths the manual gives its quantities (R6 to R8, R14). -/

namespace Sys2Proof

/-- A byte of any store (R6). -/
abbrev Byte := BitVec 8

/-- A 32-bit word: an instruction (R161), an FP32 value, a sequence number. -/
abbrev Word32 := BitVec 32

/-- A 64-bit word: a pilot register (R157), a register of the address map (R31), track time (R353). -/
abbrev Word64 := BitVec 64

/-- A graticule address: tile[7:6], row[5:3], column[2:0] (R14). -/
abbrev CellId := BitVec 8

/-- A PCIe port, 0 or 1 (R312). -/
abbrev PortId := BitVec 1

/-- An optical port, 0 to 7 (R375). -/
abbrev LinkId := BitVec 3

/-- An ingress queue, 0 to 1023 (R322). -/
abbrev QueueId := BitVec 10

/-- A pseudo-channel, 0 to 255 (R262). -/
abbrev ChanId := BitVec 8

/-- A 512-bit flit, fabric or optical (R17, R382). -/
abbrev FlitBits := BitVec 512

end Sys2Proof
end

