-- ==== Sys2Proof/Syntax.lean ====
section
/-! DEFINITION. The commands the block takes: one constructor of `Instr` per row of spec/opcode_table.json, and the types
of their operands. A pilot or vector instruction carries the cell and the fields of its 32-bit word that the row leaves
open (formats of R131 and R162); an event carries what tells it apart from the next event of its kind. -/

namespace Sys2Proof

/-- Format R (R162) of OPR and PARSE: `hi` is fn[10:6], the function code fn[5:0] is the row's. -/
structure RFmt where
  rd : BitVec 5
  ra : BitVec 5
  rb : BitVec 5
  hi : BitVec 5
deriving DecidableEq, Repr

/-- Format R of FOP (R173): `fmt` is fn[10:9], `hi` fn[8:6]. -/
structure FFmt where
  rd : BitVec 5
  ra : BitVec 5
  rb : BitVec 5
  fmt : BitVec 2
  hi : BitVec 3
deriving DecidableEq, Repr

/-- Format R of WOP (R178): `ty` is fn[10:7], `hi` fn[6]. -/
structure WFmt where
  rd : BitVec 5
  ra : BitVec 5
  rb : BitVec 5
  ty : BitVec 4
  hi : BitVec 1
deriving DecidableEq, Repr

/-- Format I (R162). -/
structure IFmt where
  rd : BitVec 5
  ra : BitVec 5
  imm : BitVec 16
deriving DecidableEq, Repr

/-- Format S (R162). -/
structure SFmt where
  rs : BitVec 5
  ra : BitVec 5
  imm : BitVec 16
deriving DecidableEq, Repr

/-- Format B (R162). -/
structure BFmt where
  ra : BitVec 5
  rb : BitVec 5
  imm : BitVec 16
deriving DecidableEq, Repr

/-- Format J (R162). -/
structure JFmt where
  imm : BitVec 26
deriving DecidableEq, Repr

/-- Format M (R162); sub is the row's. -/
structure MFmt where
  rd : BitVec 5
  hw : BitVec 2
  imm : BitVec 16
deriving DecidableEq, Repr

/-- Format BF (R162). -/
structure BfFmt where
  rd : BitVec 5
  ra : BitVec 5
  pos : BitVec 6
  lenm1 : BitVec 6
deriving DecidableEq, Repr

/-- Format SH (R162); `mid` is the field drawn 000000. -/
structure ShFmt where
  rd : BitVec 5
  ra : BitVec 5
  mid : BitVec 6
  shamt : BitVec 6
deriving DecidableEq, Repr

/-- Format RP (R162); `low` is the field drawn 000000. -/
structure RpFmt where
  rd : BitVec 5
  ra : BitVec 5
  rb : BitVec 5
  ew : BitVec 2
  low : BitVec 6
deriving DecidableEq, Repr

/-- Format FM (R162); `low` is the field drawn 00. -/
structure FmFmt where
  fd : BitVec 5
  fa : BitVec 5
  fb : BitVec 5
  fc : BitVec 5
  fmt : BitVec 2
  low : BitVec 2
deriving DecidableEq, Repr

/-- Format CV (R162); `low` is the field drawn 0x00. -/
structure CvFmt where
  rd : BitVec 5
  ra : BitVec 5
  src : BitVec 4
  dst : BitVec 4
  low : BitVec 8
deriving DecidableEq, Repr

/-- Format Y (R162); `rd` names the destination or the source. -/
structure YFmt where
  rd : BitVec 5
  ra : BitVec 5
  scope : BitVec 2
  imm : BitVec 12
deriving DecidableEq, Repr

/-- Format K (R162). -/
structure KFmt where
  rd : BitVec 5
  ra : BitVec 5
  imm : BitVec 10
deriving DecidableEq, Repr

/-- Format C (R162). -/
structure CFmt where
  rd : BitVec 5
  ra : BitVec 5
  rb : BitVec 5
  imm : BitVec 7
  entry : BitVec 4
deriving DecidableEq, Repr

/-- Format VR (R131). -/
structure VrFmt where
  vd : BitVec 5
  va : BitVec 5
  vb : BitVec 5
  mp : BitVec 4
  sc : BitVec 1
deriving DecidableEq, Repr

/-- Format VF (R131); `low` is the field drawn 0000. -/
structure VfFmt where
  vd : BitVec 5
  va : BitVec 5
  vb : BitVec 5
  mp : BitVec 4
  sc : BitVec 1
  low : BitVec 4
deriving DecidableEq, Repr

/-- Format VM (R131); ST is the row's, `low` the field drawn 00. -/
structure VmFmt where
  vt : BitVec 5
  sa : BitVec 5
  sb : BitVec 5
  mp : BitVec 4
  mode : BitVec 2
  ew : BitVec 2
  low : BitVec 2
deriving DecidableEq, Repr

/-- Format VC (R131). -/
structure VcFmt where
  vd : BitVec 5
  vs : BitVec 5
  src : BitVec 4
  dst : BitVec 4
  mp : BitVec 4
  part : BitVec 4
deriving DecidableEq, Repr

/-- Format VQ (R131); `low` is the field drawn 0000. -/
structure VqFmt where
  vd : BitVec 5
  vs : BitVec 5
  ve : BitVec 5
  fmt : BitVec 4
  part : BitVec 3
  low : BitVec 4
deriving DecidableEq, Repr

/-- Format VS (R131). -/
structure VsFmt where
  d : BitVec 5
  a : BitVec 5
  b : BitVec 5
  mp : BitVec 4
deriving DecidableEq, Repr

/-- Who makes a register access: a host through BAR2 (R33) or the pilot of a cell (R31). -/
inductive Initiator where
  | host (p : PortId)
  | pilot (g : CellId)
deriving DecidableEq, Repr

/-- The part of a register that one access covers (R31). -/
inductive Half where
  | low
  | high
  | whole
deriving DecidableEq, Repr

/-- Where a host reads: an offset of its BAR2, or of BAR0, the ring windows (R315, R33). -/
inductive BarAddr where
  | bar2 (a : BitVec 24)
  | bar0 (a : BitVec 26)
deriving DecidableEq, Repr

/-- R362: the times of a PTM dialogue, in ns: the PTM master time at which the responder received the request, the responder's turnaround,
and the requester's round trip. -/
structure PtmTimes where
  received : BitVec 64
  turnaround : BitVec 32
  roundTrip : BitVec 32
deriving DecidableEq, Repr

/-- The two stochastic-rounding generators of a cell (R59). -/
inductive SrGen where
  | vector
  | drain
deriving DecidableEq, Repr

/-- A router's links (R16, R474): output or input 0 north to 5 cell. -/
inductive Dir where
  | north
  | south
  | east
  | west
  | edge
  | cell
deriving DecidableEq, Repr

/-- A traffic class (R19), also a queue's class (R322). -/
inductive Class where
  | control
  | comet
  | tide
deriving DecidableEq, Repr

/-- An endpoint of the fabric (R22): a cell interface, or the hub. -/
inductive Endpoint where
  | cell (g : CellId)
  | hub
deriving DecidableEq, Repr

/-- A fabric flit with its sideband: source, destination, class and command tag (R442). `req` names the request of the
source that the flit carries, if any. -/
structure Flit where
  src : Endpoint
  dst : Endpoint
  cls : Class
  tag : Option Nat
  req : Option Nat
  payload : FlitBits
deriving DecidableEq, Repr

/-- What the receiving router's ECC finds (R23, R442, R443). -/
inductive FlitEcc where
  /-- No error, or a corrected one. -/
  | good
  /-- Uncorrectable flit, correct sideband. -/
  | lost
  /-- Uncorrectable flit and sideband. -/
  | lostUnknown
deriving DecidableEq, Repr

/-- A hardware failure that strikes one step of a pass: the values `v` that row 3 delivers wrongly (row, column, value; R105),
whether a drain adder's residue mismatched in the step, and whether one mismatches when the drain later folds the step's stored chunk
sum (R107). -/
structure StepUpset where
  wrong : List (Nat × Nat × Word32)
  residue : Bool
  fold : Bool := false
deriving DecidableEq, Repr

/-- R312: the speed and width at which a PCIe link has come up. -/
structure LinkRate where
  speed : BitVec 3
  width : BitVec 4
deriving DecidableEq, Repr

/-- The checks of the vector datapaths (R445): the mod-7 residue, byte parity, and the SEC-DED code of the vector register file. -/
inductive LaneCheck where
  | residue
  | parity
  | ecc
deriving DecidableEq, Repr

/-- A hardware failure of one vector lane (R152): the element, and the bits computed for it. -/
structure LaneUpset where
  element : Nat
  bits : Word64
  check : LaneCheck
deriving DecidableEq, Repr

/-- An optical frame as it reaches the receiver's FEC (R382, R383): the wrong symbols of each of its four codewords, its control word, and
the flits of the slots that SLOTV marks, in order, each with the class of its packet. `spoilt` are the flits that decoding has turned into
others, by number, each with whether its sideband still tells whose it is (R444). -/
structure Frame where
  wrong : List Nat
  ctl : BitVec 80
  flits : List (Class × FlitBits)
  spoilt : List (Nat × Bool) := []
deriving DecidableEq, Repr

/-- Why a port retrains (R380). -/
inductive RetrainWhy where
  | lightLoss
  | codewords
  | fackTimeout
deriving DecidableEq, Repr

/-- What training or retraining finds on a port (R377 to R380): which of its 16 logical lanes work before spares, and whether some
other step failed. -/
structure LaneResult where
  light : Bool
  working : BitVec 16
  otherFailure : Bool
deriving DecidableEq, Repr

/-- A unit of a store, by number: of SRAM the 64 bytes that a scrub reads (R441), or the 8 bytes of a code unit that a fault strikes (R253);
of HBM a 64-byte sector. -/
inductive ScrubUnit where
  | localStore (g : CellId) (unit : Nat)
  | window (g : CellId) (unit : Nat)
  | scratch (g : CellId) (unit : Nat)
  | hbm (sector : Nat)
deriving DecidableEq, Repr

/-- A fault that has struck a store since the last scrub and that no read has met yet (R253, R259, R263, R264). -/
inductive Upset where
  /-- Wrong bits of a unit of SRAM, or wrong symbols of a sector of HBM. -/
  | store (u : ScrubUnit) (wrong : Nat)
  /-- The metadata word that a sector of HBM holds. -/
  | metadata (sector : Nat) (word : BitVec 16)
  /-- On-die ECC of HBM has corrected in a sector, and reports it at the next read. -/
  | onDie (sector : Nat)
  /-- Command/address or write-data parity errors in a row, of an access to a sector. -/
  | parity (sector : Nat) (errors : Nat)
  /-- Wrong bits of 8-byte unit `unit` of a cached line, by line number. -/
  | line (tile : BitVec 2) (num : Nat) (unit : BitVec 5) (wrong : Nat)
deriving DecidableEq, Repr

/-- Where a waiting error record stands: a cell's interface or the hub (R454). -/
inductive RecSource where
  | cell (g : CellId)
  | hub
deriving DecidableEq, Repr

/-- Why a cell is reset; the code is that of R455. -/
inductive ResetWhy where
  | triple
  | watchdog
  | lockstep
  | ecc
  | selftest
deriving DecidableEq, Repr

/-- Failed lanes of one group and the spares it has (R269): of a data byte group of pseudo-channel `chan`, or the command/address lanes
of the channel that `chan` belongs to. -/
structure LaneGroup where
  chan : ChanId
  failed : Nat
  spares : Nat
deriving DecidableEq, Repr

/-- What the parallel work of TRAIN finds (R423, R268, R269, R377): stacks that fail their self-test, failed data and command/address
lanes, pseudo-channels whose centring fails, cells that fail self-test, each used port's lanes, the working spares of each optical
engine (4 where none is given), the engines' temperatures in °C and the input voltage. -/
structure TrainResult where
  badStacks : List (BitVec 3)
  dataLanes : List LaneGroup
  caLanes : List LaneGroup
  badCentring : List ChanId
  badCells : List CellId
  lanes : List (LinkId × LaneResult)
  spares : List (BitVec 3)
  temps : List Int
  mv : Nat
deriving DecidableEq, Repr

/-- The commands of the block: one constructor per row of the opcode table, each with the row's operands. -/
inductive Instr where
  /-- ADD (R165). Pilot OPR instruction that writes ra + rb to rd. -/
  | add (g : CellId) (f : RFmt)
  /-- SUB (R165). Pilot OPR instruction that writes ra − rb to rd. -/
  | sub (g : CellId) (f : RFmt)
  /-- AND (R165). Pilot OPR bitwise and of ra and rb. -/
  | and (g : CellId) (f : RFmt)
  /-- OR (R165). Pilot OPR bitwise or of ra and rb. -/
  | or (g : CellId) (f : RFmt)
  /-- XOR (R165). Pilot OPR bitwise exclusive-or of ra and rb. -/
  | xor (g : CellId) (f : RFmt)
  /-- ANDN (R165). Pilot OPR ra and not rb. -/
  | andn (g : CellId) (f : RFmt)
  /-- SLL (R165). Pilot OPR shift left of ra by rb mod 64. -/
  | sll (g : CellId) (f : RFmt)
  /-- SRL (R165). Pilot OPR logical shift right of ra. -/
  | srl (g : CellId) (f : RFmt)
  /-- SRA (R165). Pilot OPR arithmetic shift right of ra. -/
  | sra (g : CellId) (f : RFmt)
  /-- SLT (R165). Pilot OPR signed less-than of ra and rb, giving 1 or 0. -/
  | slt (g : CellId) (f : RFmt)
  /-- SLTU (R165). Pilot OPR unsigned less-than of ra and rb, giving 1 or 0. -/
  | sltu (g : CellId) (f : RFmt)
  /-- MIN (R165). Pilot OPR signed minimum of ra and rb. -/
  | min (g : CellId) (f : RFmt)
  /-- MAX (R165). Pilot OPR signed maximum of ra and rb. -/
  | max (g : CellId) (f : RFmt)
  /-- MINU (R165). Pilot OPR unsigned minimum of ra and rb. -/
  | minu (g : CellId) (f : RFmt)
  /-- MAXU (R165). Pilot OPR unsigned maximum of ra and rb. -/
  | maxu (g : CellId) (f : RFmt)
  /-- MUL (R165). Pilot OPR low 64 bits of ra × rb. -/
  | mul (g : CellId) (f : RFmt)
  /-- MULH (R165). Pilot OPR high 64 bits of the signed × signed product. -/
  | mulh (g : CellId) (f : RFmt)
  /-- MULHU (R165). Pilot OPR high 64 bits of the unsigned × unsigned product. -/
  | mulhu (g : CellId) (f : RFmt)
  /-- MULHSU (R165). Pilot OPR high 64 bits of signed ra × unsigned rb. -/
  | mulhsu (g : CellId) (f : RFmt)
  /-- DIV (R166). Pilot OPR signed quotient, truncated toward zero, with results defined for division by zero and overflow. -/
  | div (g : CellId) (f : RFmt)
  /-- DIVU (R166). Pilot OPR unsigned quotient, defined for division by zero. -/
  | divu (g : CellId) (f : RFmt)
  /-- REM (R166). Pilot OPR signed remainder, taking the sign of ra. -/
  | rem (g : CellId) (f : RFmt)
  /-- REMU (R166). Pilot OPR unsigned remainder. -/
  | remu (g : CellId) (f : RFmt)
  /-- ROR (R165). Pilot OPR rotate right of ra by rb mod 64. -/
  | ror (g : CellId) (f : RFmt)
  /-- OPRW (R165). 32-bit OPR function on the low halves of the operands, with the result sign-extended to 64 bits. -/
  | oprw (g : CellId) (op : BitVec 6) (f : RFmt)
  /-- ADDI (R167). Adds the sign-extended imm16 to ra. -/
  | addi (g : CellId) (f : IFmt)
  /-- ADDIW (R167). 32-bit add of the sign-extended imm16, with the result sign-extended. -/
  | addiw (g : CellId) (f : IFmt)
  /-- ANDI (R167). And of ra with the zero-extended imm16. -/
  | andi (g : CellId) (f : IFmt)
  /-- ORI (R167). Or of ra with the zero-extended imm16. -/
  | ori (g : CellId) (f : IFmt)
  /-- XORI (R167). Exclusive-or of ra with the zero-extended imm16. -/
  | xori (g : CellId) (f : IFmt)
  /-- SLTI (R167). Signed compare of ra with the sign-extended imm16. -/
  | slti (g : CellId) (f : IFmt)
  /-- SLTIU (R167). Unsigned compare of ra with the sign-extended imm16. -/
  | sltiu (g : CellId) (f : IFmt)
  /-- SLLI (R167). SHIFTI shift left of ra by shamt. -/
  | slli (g : CellId) (f : ShFmt)
  /-- SRLI (R167). SHIFTI logical shift right of ra by shamt. -/
  | srli (g : CellId) (f : ShFmt)
  /-- SRAI (R167). SHIFTI arithmetic shift right of ra by shamt. -/
  | srai (g : CellId) (f : ShFmt)
  /-- RORI (R167). SHIFTI rotate right of ra by shamt. -/
  | rori (g : CellId) (f : ShFmt)
  /-- SLLIW (R167). SHIFTI 32-bit shift left of ra by shamt. -/
  | slliw (g : CellId) (f : ShFmt)
  /-- SRLIW (R167). SHIFTI 32-bit logical shift right of ra by shamt. -/
  | srliw (g : CellId) (f : ShFmt)
  /-- SRAIW (R167). SHIFTI 32-bit arithmetic shift right of ra by shamt. -/
  | sraiw (g : CellId) (f : ShFmt)
  /-- CSET (R167). MOVI that places the sign-extended imm16 at halfword hw. -/
  | cset (g : CellId) (f : MFmt)
  /-- CINS (R167). MOVI that inserts imm16 into halfword hw of rd and keeps the other bits. -/
  | cins (g : CellId) (f : MFmt)
  /-- CREP (R167). MOVI that repeats imm16 in all four halfwords of rd. -/
  | crep (g : CellId) (f : MFmt)
  /-- BFX (R180). Extracts a zero-extended bit field of ra. -/
  | bfx (g : CellId) (f : BfFmt)
  /-- BFXS (R180). Extracts a sign-extended bit field of ra. -/
  | bfxs (g : CellId) (f : BfFmt)
  /-- BFI (R180). Inserts the low bits of ra as a field of rd. -/
  | bfi (g : CellId) (f : BfFmt)
  /-- BFC (R180). Clears a bit field of rd. -/
  | bfc (g : CellId) (f : BfFmt)
  /-- CLZ (R180). Counts the leading zero bits of ra. -/
  | clz (g : CellId) (f : RFmt)
  /-- CTZ (R180). Counts the trailing zero bits of ra. -/
  | ctz (g : CellId) (f : RFmt)
  /-- POPC (R180). Counts the set bits of ra. -/
  | popc (g : CellId) (f : RFmt)
  /-- CLZW (R180). Counts the leading zero bits of ra[31:0]. -/
  | clzw (g : CellId) (f : RFmt)
  /-- CTZW (R180). Counts the trailing zero bits of ra[31:0]. -/
  | ctzw (g : CellId) (f : RFmt)
  /-- POPCW (R180). Counts the set bits of ra[31:0]. -/
  | popcw (g : CellId) (f : RFmt)
  /-- BPERM (R182). Permutes or zeroes the bytes of ra by the nibble selector in rb. -/
  | bperm (g : CellId) (f : RFmt)
  /-- BSWAP16 (R180). Byte-swaps ra[15:0] and zeroes the upper bits. -/
  | bswap16 (g : CellId) (f : RFmt)
  /-- BSWAP32 (R180). Byte-swaps ra[31:0] and zeroes the upper bits. -/
  | bswap32 (g : CellId) (f : RFmt)
  /-- BSWAP64 (R180). Reverses the bytes of ra. -/
  | bswap64 (g : CellId) (f : RFmt)
  /-- BFXV (R181). BFX with the position and length taken from rb. -/
  | bfxv (g : CellId) (f : RFmt)
  /-- BFXSV (R181). BFXS with the position and length taken from rb. -/
  | bfxsv (g : CellId) (f : RFmt)
  /-- BFIV (R181). BFI with the position and length taken from rb. -/
  | bfiv (g : CellId) (f : RFmt)
  /-- RCOPY (R184). Block-repeat copy of units from s4 to s5, s3 times. -/
  | rcopy (g : CellId) (f : RpFmt)
  /-- RFILL (R184). Block-repeat fill of units at s5 with the low bits of ra. -/
  | rfill (g : CellId) (f : RpFmt)
  /-- RSCAN (R184). Block-repeat scan that stops at a unit equal to ra. -/
  | rscan (g : CellId) (f : RpFmt)
  /-- RSCANN (R184). Block-repeat scan that stops at a unit that differs from ra. -/
  | rscann (g : CellId) (f : RpFmt)
  /-- RCMP (R184). Block-repeat compare of the units at s4 and s5 that stops at the first difference. -/
  | rcmp (g : CellId) (f : RpFmt)
  /-- RSPAN (R184). Block-repeat byte scan that stops at a byte outside the class. -/
  | rspan (g : CellId) (f : RpFmt)
  /-- RBREAK (R184). Block-repeat byte scan that stops at a byte inside the class. -/
  | rbreak (g : CellId) (f : RpFmt)
  /-- RCSUM (R184). Block-repeat ones'-complement sum of big-endian 16-bit units into rd. -/
  | rcsum (g : CellId) (f : RpFmt)
  /-- REP_ITERATION (R186). One iteration of a running block-repeat, begun after the previous one or after its read returns; it is an interrupt boundary. -/
  | repIteration (g : CellId)
  /-- LB (R168). Loads a sign-extended byte. -/
  | lb (g : CellId) (f : IFmt)
  /-- LH (R168). Loads a sign-extended halfword. -/
  | lh (g : CellId) (f : IFmt)
  /-- LW (R168). Loads a sign-extended word. -/
  | lw (g : CellId) (f : IFmt)
  /-- LD (R168). Loads a doubleword. -/
  | ld (g : CellId) (f : IFmt)
  /-- LBU (R168). Loads a zero-extended byte. -/
  | lbu (g : CellId) (f : IFmt)
  /-- LHU (R168). Loads a zero-extended halfword. -/
  | lhu (g : CellId) (f : IFmt)
  /-- LWU (R168). Loads a zero-extended word. -/
  | lwu (g : CellId) (f : IFmt)
  /-- SB (R168). Stores a byte. -/
  | sb (g : CellId) (f : SFmt)
  /-- SH (R168). Stores a halfword. -/
  | sh (g : CellId) (f : SFmt)
  /-- SW (R168). Stores a word. -/
  | sw (g : CellId) (f : SFmt)
  /-- SD (R168). Stores a doubleword. -/
  | sd (g : CellId) (f : SFmt)
  /-- FLD (R168). Loads 8 bytes into fd. -/
  | fld (g : CellId) (f : IFmt)
  /-- FLW (R168). Loads 4 bytes into fd and zeroes the rest. -/
  | flw (g : CellId) (f : IFmt)
  /-- FSD (R168). Stores 8 bytes from fs. -/
  | fsd (g : CellId) (f : SFmt)
  /-- FSW (R168). Stores bits [31:0] of fs. -/
  | fsw (g : CellId) (f : SFmt)
  /-- WLD (R168). Loads 16 bytes into wd. -/
  | wld (g : CellId) (f : IFmt)
  /-- WST (R168). Stores 16 bytes from ws. -/
  | wst (g : CellId) (f : SFmt)
  /-- REMOTE_RESPONSE (R211). A remote load's response arrives and writes its destination. -/
  | remoteResponse (g : CellId) (req : Nat)
  /-- STORE_ACK (R211). A remote store's acknowledgement arrives and completes the request. -/
  | storeAck (g : CellId) (req : Nat)
  /-- REMOTE_REQUEST (R210). A remote load or store reaches its home, which samples or performs it. -/
  | remoteRequest (g : CellId) (req : Nat)
  /-- LDA (R298). Acquire load of an aligned doubleword that bypasses the tile cache and holds later accesses. -/
  | lda (g : CellId) (f : YFmt)
  /-- STREL (R297). Release store of a doubleword after the earlier loads and in-reach stores have completed. -/
  | strel (g : CellId) (f : YFmt)
  /-- FENCE (R300). Fence at a scope that waits as a STREL does and holds later accesses. -/
  | fence (g : CellId) (f : YFmt)
  /-- ACQR (R299). Acquire fence that, at module or chain scope, invalidates the tile-cache lines of a range or of the whole cache. -/
  | acqr (g : CellId) (f : YFmt)
  /-- FCVT (R176). Scalar format conversion between f and s registers. -/
  | fcvt (g : CellId) (f : CvFmt)
  /-- BEQ (R172). Branches when ra = rb. -/
  | beq (g : CellId) (f : BFmt)
  /-- BNE (R172). Branches when ra ≠ rb. -/
  | bne (g : CellId) (f : BFmt)
  /-- BLT (R172). Branches when ra < rb, signed. -/
  | blt (g : CellId) (f : BFmt)
  /-- BGE (R172). Branches when ra ≥ rb, signed. -/
  | bge (g : CellId) (f : BFmt)
  /-- BLTU (R172). Branches when ra < rb, unsigned. -/
  | bltu (g : CellId) (f : BFmt)
  /-- BGEU (R172). Branches when ra ≥ rb, unsigned. -/
  | bgeu (g : CellId) (f : BFmt)
  /-- JAL (R172). Jumps relative to the PC and writes the link to s1. -/
  | jal (g : CellId) (f : JFmt)
  /-- JALR (R172). Jumps to a register address and writes the link to rd. -/
  | jalr (g : CellId) (f : IFmt)
  /-- FADD (R173). Scalar float add. -/
  | fadd (g : CellId) (f : FFmt)
  /-- FSUB (R173). Scalar float subtract. -/
  | fsub (g : CellId) (f : FFmt)
  /-- FMUL (R173). Scalar float multiply. -/
  | fmul (g : CellId) (f : FFmt)
  /-- FDIV (R173). Scalar float divide, correctly rounded. -/
  | fdiv (g : CellId) (f : FFmt)
  /-- FSQRT (R173). Scalar float square root, correctly rounded. -/
  | fsqrt (g : CellId) (f : FFmt)
  /-- FMIN (R173). Scalar float minimum, with −0 < +0. -/
  | fmin (g : CellId) (f : FFmt)
  /-- FMAX (R173). Scalar float maximum, with −0 < +0. -/
  | fmax (g : CellId) (f : FFmt)
  /-- FABS (R174). Scalar float absolute value. -/
  | fabs (g : CellId) (f : FFmt)
  /-- FNEG (R174). Scalar float negation. -/
  | fneg (g : CellId) (f : FFmt)
  /-- FEQ (R173). Scalar float equality compare into sd. -/
  | feq (g : CellId) (f : FFmt)
  /-- FLT (R173). Scalar float less-than compare into sd. -/
  | flt (g : CellId) (f : FFmt)
  /-- FLE (R173). Scalar float less-or-equal compare into sd. -/
  | fle (g : CellId) (f : FFmt)
  /-- FMVSF (R173). Moves the 64 bits of sa into fd. -/
  | fmvsf (g : CellId) (f : FFmt)
  /-- FMVFS (R173). Moves the 64 bits of fa into sd. -/
  | fmvfs (g : CellId) (f : FFmt)
  /-- FMADD (R175). Fused fa × fb + fc, rounded once. -/
  | fmadd (g : CellId) (f : FmFmt)
  /-- FMSUB (R175). Fused fa × fb − fc, rounded once. -/
  | fmsub (g : CellId) (f : FmFmt)
  /-- FNMADD (R175). Fused −(fa × fb) + fc, rounded once. -/
  | fnmadd (g : CellId) (f : FmFmt)
  /-- FNMSUB (R175). Fused −(fa × fb) − fc, rounded once. -/
  | fnmsub (g : CellId) (f : FmFmt)
  /-- WADD (R178). Short-vector elementwise add. -/
  | wadd (g : CellId) (f : WFmt)
  /-- WSUB (R178). Short-vector elementwise subtract. -/
  | wsub (g : CellId) (f : WFmt)
  /-- WMUL (R178). Short-vector elementwise multiply. -/
  | wmul (g : CellId) (f : WFmt)
  /-- WMIN (R178). Short-vector elementwise minimum. -/
  | wmin (g : CellId) (f : WFmt)
  /-- WMAX (R178). Short-vector elementwise maximum. -/
  | wmax (g : CellId) (f : WFmt)
  /-- WFMA (R178). Short-vector fused multiply-add. -/
  | wfma (g : CellId) (f : WFmt)
  /-- WAND (R178). Short-vector bitwise and. -/
  | wand (g : CellId) (f : WFmt)
  /-- WOR (R178). Short-vector bitwise or. -/
  | wor (g : CellId) (f : WFmt)
  /-- WXOR (R178). Short-vector bitwise exclusive-or. -/
  | wxor (g : CellId) (f : WFmt)
  /-- WCMPEQ (R178). Short-vector equality compare into a bit mask in sd. -/
  | wcmpeq (g : CellId) (f : WFmt)
  /-- WCMPLT (R178). Short-vector less-than compare into a bit mask in sd. -/
  | wcmplt (g : CellId) (f : WFmt)
  /-- WCMPLE (R178). Short-vector less-or-equal compare into a bit mask in sd. -/
  | wcmple (g : CellId) (f : WFmt)
  /-- WBCAST (R178). Broadcasts a scalar to every element of wd. -/
  | wbcast (g : CellId) (f : WFmt)
  /-- WEXT (R178). Extracts element rb of wa into a scalar. -/
  | wext (g : CellId) (f : WFmt)
  /-- WINS (R178). Inserts a scalar into element rb of wd. -/
  | wins (g : CellId) (f : WFmt)
  /-- WPICKB (R178). Byte select from wa, from the old wd or as a constant, under the selector wb. -/
  | wpickb (g : CellId) (f : WFmt)
  /-- GATE (R235). Checks the gate descriptor and its arguments, then enters gate n. -/
  | gate (g : CellId) (f : KFmt)
  /-- RETX (R239). Returns from an exception: chains, pops and checks the frame against the ceiling, or refuses it. -/
  | retx (g : CellId) (f : KFmt)
  /-- GUARD (R246). Opens a guard window of n cc that holds back every interrupt. -/
  | guard (g : CellId) (f : KFmt)
  /-- GUARD_WINDOW_CLOSE (R246). An open guard window expires, and any held interrupt becomes eligible. -/
  | guardWindowClose (g : CellId)
  /-- IFENCE (R218). Waits for earlier window stores to become visible, then refetches. -/
  | ifence (g : CellId) (f : KFmt)
  /-- KEND (R190). Waits for passes, vector work and mover commands, then ends the kernel with an exit word. -/
  | kend (g : CellId) (f : KFmt)
  /-- MWAIT (R189). Stalls until the mailbox holds a word. -/
  | mwait (g : CellId) (f : KFmt)
  /-- FGETS (R177). Reads the flags and rounding modes into sd. -/
  | fgets (g : CellId) (f : KFmt)
  /-- FSETM (R177). Sets PRM and VRM. -/
  | fsetm (g : CellId) (f : KFmt)
  /-- FCLRF (R177). Clears the selected CELL_FPSTAT flags. -/
  | fclrf (g : CellId) (f : KFmt)
  /-- APASS (R92). Captures and checks a pass descriptor, then queues the pass, skips it under RESTART, or faults. -/
  | apass (g : CellId) (f : KFmt)
  /-- AWAIT (R101). Stalls until at most n passes are outstanding. -/
  | await (g : CellId) (f : KFmt)
  /-- MVISS (R277). Issues a mover command and returns its ticket. -/
  | mviss (g : CellId) (f : KFmt)
  /-- MVWAIT (R188). Stalls until every command up to a ticket has completed. -/
  | mvwait (g : CellId) (f : KFmt)
  /-- MVDONE (R188). Returns the largest ticket up to which every command has completed. -/
  | mvdone (g : CellId) (f : KFmt)
  /-- CUSTOM (R197). Runs a decode-table entry's micro-ops and commits its architectural writes together. -/
  | custom (g : CellId) (f : CFmt)
  /-- INTERRUPT_ENTRY (R232). An enabled pending interrupt is taken at an instruction boundary. -/
  | interruptEntry (g : CellId)
  /-- VADD (R133). Vector elementwise add. -/
  | vadd (g : CellId) (f : VrFmt)
  /-- VSUB (R133). Vector elementwise subtract. -/
  | vsub (g : CellId) (f : VrFmt)
  /-- VMUL (R133). Vector elementwise multiply. -/
  | vmul (g : CellId) (f : VrFmt)
  /-- VMIN (R133). Vector elementwise minimum. -/
  | vmin (g : CellId) (f : VrFmt)
  /-- VMAX (R133). Vector elementwise maximum. -/
  | vmax (g : CellId) (f : VrFmt)
  /-- VABS (R133). Vector elementwise absolute value. -/
  | vabs (g : CellId) (f : VrFmt)
  /-- VNEG (R133). Vector elementwise negation. -/
  | vneg (g : CellId) (f : VrFmt)
  /-- VAND (R133). Vector bitwise and. -/
  | vand (g : CellId) (f : VrFmt)
  /-- VOR (R133). Vector bitwise or. -/
  | vor (g : CellId) (f : VrFmt)
  /-- VXOR (R133). Vector bitwise exclusive-or. -/
  | vxor (g : CellId) (f : VrFmt)
  /-- VSHL (R133). Vector shift left. -/
  | vshl (g : CellId) (f : VrFmt)
  /-- VSHR (R133). Vector shift right. -/
  | vshr (g : CellId) (f : VrFmt)
  /-- VMERGE (R133). Selects vb or va per element by mp. -/
  | vmerge (g : CellId) (f : VrFmt)
  /-- VCMPEQ (R133). Vector equality compare into a predicate. -/
  | vcmpeq (g : CellId) (f : VrFmt)
  /-- VCMPNE (R133). Vector inequality compare into a predicate. -/
  | vcmpne (g : CellId) (f : VrFmt)
  /-- VCMPLT (R133). Vector less-than compare into a predicate. -/
  | vcmplt (g : CellId) (f : VrFmt)
  /-- VCMPLE (R133). Vector less-or-equal compare into a predicate. -/
  | vcmple (g : CellId) (f : VrFmt)
  /-- VCMPUN (R133). Vector unordered compare into a predicate. -/
  | vcmpun (g : CellId) (f : VrFmt)
  /-- VFRCP (R137). Vector reciprocal estimate. -/
  | vfrcp (g : CellId) (f : VrFmt)
  /-- VFRSQ (R137). Vector reciprocal square-root estimate. -/
  | vfrsq (g : CellId) (f : VrFmt)
  /-- VFMA (R132). Vector fused va × vb + vd. -/
  | vfma (g : CellId) (f : VfFmt)
  /-- VFMS (R132). Vector fused va × vb − vd. -/
  | vfms (g : CellId) (f : VfFmt)
  /-- VNFMA (R132). Vector fused −(va × vb) + vd. -/
  | vnfma (g : CellId) (f : VfFmt)
  /-- VLD (R145). Vector load, unit-stride, strided or indexed, on the vector memory port. -/
  | vld (g : CellId) (f : VmFmt)
  /-- VST (R145). Vector store, unit-stride, strided or indexed, on the vector memory port. -/
  | vst (g : CellId) (f : VmFmt)
  /-- VCVT (R138). Vector format conversion with PART pairing. -/
  | vcvt (g : CellId) (f : VcFmt)
  /-- VBQ (R139). Vector block quantisation of FP32 elements into scaled narrow elements. -/
  | vbq (g : CellId) (f : VqFmt)
  /-- VSETL (R134). Sets VT and VL and returns VL. -/
  | vsetl (g : CellId) (f : VsFmt)
  /-- VGETL (R134). Returns VL and VT to a scalar. -/
  | vgetl (g : CellId) (f : VsFmt)
  /-- VREDSUM (R153). Pairwise-tree sum of the active elements. -/
  | vredsum (g : CellId) (f : VsFmt)
  /-- VREDMAX (R153). Largest active element. -/
  | vredmax (g : CellId) (f : VsFmt)
  /-- VREDMIN (R153). Smallest active element. -/
  | vredmin (g : CellId) (f : VsFmt)
  /-- VMVS (R134). Moves a vector element to a scalar. -/
  | vmvs (g : CellId) (f : VsFmt)
  /-- VMVV (R134). Moves a scalar into a vector element. -/
  | vmvv (g : CellId) (f : VsFmt)
  /-- VBCAST (R134). Broadcasts a scalar to the active elements. -/
  | vbcast (g : CellId) (f : VsFmt)
  /-- VIOTA (R134). Writes the element index into each active element. -/
  | viota (g : CellId) (f : VsFmt)
  /-- VPERM (R134). Permutes va by the indices in vb. -/
  | vperm (g : CellId) (f : VsFmt)
  /-- VSLIDEDN (R134). Slides elements down by sb. -/
  | vslidedn (g : CellId) (f : VsFmt)
  /-- VSLIDEUP (R134). Slides elements up by sb. -/
  | vslideup (g : CellId) (f : VsFmt)
  /-- VFEED (R141). Pushes a slice into the feed queue, stalling while the queue is full. -/
  | vfeed (g : CellId) (f : VsFmt)
  /-- VORB (R154). Orbit reduction step that sends or receives a running total along the orbit order. -/
  | vorb (g : CellId) (f : VsFmt)
  /-- VSYNC (R150). Waits for all issued vector work. -/
  | vsync (g : CellId) (f : VsFmt)
  /-- MAND (R134). Predicate and. -/
  | mand (g : CellId) (f : VsFmt)
  /-- MOR (R134). Predicate or. -/
  | mor (g : CellId) (f : VsFmt)
  /-- MXOR (R134). Predicate exclusive-or. -/
  | mxor (g : CellId) (f : VsFmt)
  /-- MANDN (R134). Predicate and-not. -/
  | mandn (g : CellId) (f : VsFmt)
  /-- MCNT (R134). Counts the set predicate bits below VL. -/
  | mcnt (g : CellId) (f : VsFmt)
  /-- MFIRST (R134). Returns the lowest set predicate bit below VL. -/
  | mfirst (g : CellId) (f : VsFmt)
  /-- VEC_WAIT_TIMEOUT (R141). A VFEED or VORB stall reaches VEC_WAIT_LIMIT and ends with a vector-wait fault. -/
  | vecWaitTimeout (g : CellId)
  /-- VECTOR_ORBIT_PACKET (R155). A vector orbit packet arrives in the inbox and is accepted by, or mismatches, a waiting VORB. -/
  | vectorOrbitPacket (g : CellId)
  /-- PASS_START (R99). A queued pass begins stepping once its predecessor's steps end. -/
  | passStart (g : CellId)
  /-- PASS_STEP (R98). One step's broadcast through the arrays and drain, including the checksum and residue checks. -/
  | passStep (g : CellId) (upset : StepUpset)
  /-- PASS_COMMIT (R108). A staged pass writes its outputs or sends its orbit totals, and merges its flags. -/
  | passCommit (g : CellId)
  /-- ORBIT_PACKET (R122). An orbit totals packet arrives at a drain and is checked, folded, held in the inbox or discarded. -/
  | orbitPacket (g : CellId)
  /-- PASS_STALL_LIMIT (R97). A pass's bubble and wait count reaches ARR_STALL_LIMIT, and the pass aborts with cause STALL. -/
  | passStallLimit (g : CellId)
  /-- ARR_CTL_ABORT (R102). A write of 1 to ARR_CTL.ABORT aborts the current pass with cause SUPERVISOR. -/
  | arrCtlAbort (g : CellId)
  /-- ARR_CTL_HOLD (R109). A write of ARR_CTL.HOLD holds, or releases, the start of queued passes. -/
  | arrCtlHold (g : CellId) (hold : Bool)
  /-- COPY (R281). A mover COPY command starts, is checked and transfers bytes. -/
  | copy (g : CellId) (stopAfter : Option Nat)
  /-- FILL (R280). A mover FILL command starts and writes the pattern. -/
  | fill (g : CellId) (stopAfter : Option Nat)
  /-- COPY2D (R280). A mover two-dimensional copy starts and transfers rows. -/
  | copy2d (g : CellId) (stopAfter : Option Nat)
  /-- FILL2D (R280). A mover two-dimensional fill starts and writes rows. -/
  | fill2d (g : CellId) (stopAfter : Option Nat)
  /-- MOVER_COMPLETE (R279). A mover command completes once its writes are acknowledged and its reads have returned. -/
  | moverComplete (g : CellId) (ticket : Nat)
  /-- CELL_MBOX_IN (R25). A posted word reaches a cell's mailbox and is appended, or dropped when the mailbox is full. -/
  | cellMboxIn (g : CellId) (by' : Initiator) (w : Word64)
  /-- CELL_MBOX_HEAD (R24). A read that removes the oldest mailbox word. -/
  | cellMboxHead (g : CellId) (by' : Initiator) (rd : BitVec 5)
  /-- VEC_CFG_WRITE (R130). A supervisor write to VEC_CFG that sets VT, then VL clamped to VLMAX. -/
  | vecCfgWrite (g : CellId) (v : Word64)
  /-- SR_STATE_WRITE (R59). A write to CELL_SRV_STATE or CELL_SRD_STATE; a write of 0 stores 1. -/
  | srStateWrite (g : CellId) (which : SrGen) (v : Word64)
  /-- REGISTER_WRITE (R9). A write to a register with no row of its own, including W1C and RW fields. -/
  | registerWrite (by' : Initiator) (a : BitVec 52) (v : Word64) (half : Half)
  /-- FLIT_RECEIVE (R23). A fabric flit arrives at a router, is ECC-checked and is forwarded or dropped. -/
  | flitReceive (r : CellId) (inp : Dir) (flit : Flit) (ecc : FlitEcc)
  /-- CREDIT_RETURN (R21). A credit returns to a sender once a flit has left the receiver's buffer. -/
  | creditReturn (r : CellId) (out : Dir) (vc : BitVec 3)
  /-- LOSS_ACK (R442). A loss acknowledgement reaches the source of a dropped flit. -/
  | lossAck (g : CellId) (req : Nat)
  /-- REQUEST_TIMEOUT (R443). A remote request gets no response within 20 µs. -/
  | requestTimeout (g : CellId) (req : Nat)
  /-- RING_WRITE (R323). A host TLP write into a queue's ring window is checked for order and credits. -/
  | ringWrite (p : PortId) (q : QueueId) (off : BitVec 16) (bytes : List Byte)
  /-- COMMAND_PACKET (R333). A complete Maelly packet is taken from the ring and checked for acceptance. -/
  | commandPacket (q : QueueId)
  /-- SLOT_TAKE (R336). A RUN held for lack of a slot takes the next slot that frees. -/
  | slotTake (q : QueueId)
  /-- PACKET_ADMIT (R337). The dispatcher admits one accepted packet by precedence. -/
  | packetAdmit
  /-- RUN (R337). Runs a kernel: held as required, checked for lateness and sent as rings to the members. -/
  | run
  /-- NOP (R329). Completes at once with OK. -/
  | nop
  /-- QCONFIG (R331). Configures or resets a queue's vector, credit-word address and error ring. -/
  | qconfig
  /-- TAKEOVER (R350). Takes over the queues of the other port when that port has been down long enough. -/
  | takeover
  /-- GIVEBACK (R351). Returns queues to the other port. -/
  | giveback
  /-- TIME (R359). Time-of-day control packet that sets the disciplining mode and its values. -/
  | time
  /-- ATTEST (R432). Requests a signed attestation report over the host's nonce. -/
  | attest
  /-- ATTEST_REPORT_DONE (R432). An attestation report finishes building and is written as the result. -/
  | attestReportDone
  /-- ECLIPSE_SCHEDULE (R475). Schedules an Eclipse at TICK, with an optional RELTIME. -/
  | eclipseSchedule
  /-- ECLIPSE_CANCEL (R475). Cancels a scheduled Eclipse. -/
  | eclipseCancel
  /-- ECLIPSE_RELEASE (R478). Releases a frozen module. -/
  | eclipseRelease
  /-- HELD_RUN_RELEASE (R337). A held RUN is released when its FENCE, group-down or full-ring-queue condition clears. -/
  | heldRunRelease (c : Nat)
  /-- SCHEDULED_START (R368). Track time reaches a held RUN's START. -/
  | scheduledStart (c : Nat)
  /-- DEADLINE_EXPIRY (R368). A RUN not yet sent reaches its deadline and completes LATE. -/
  | deadlineExpiry (c : Nat)
  /-- PAYLOAD_ACK (R43). The leader acknowledges the last payload write, and the other members' rings are sent. -/
  | payloadAck (c : Nat)
  /-- RING (R40). A dispatcher ring arrives at a cell's ring queue. -/
  | ring (g : CellId) (c : Nat)
  /-- KERNEL_LAUNCH (R338). A cell launches the next ring once its pilot is idle and loads the launch state. -/
  | kernelLaunch (g : CellId)
  /-- KERNEL_END_REPORT (R342). A member's kernel-end report reaches the event port and is admitted. -/
  | kernelEndReport (g : CellId)
  /-- ABORT_REPORT (R111). A member's abort report is admitted, and the hub ends the command in every member. -/
  | abortReport (g : CellId)
  /-- HUB_END_COMMAND (R111). The hub's end of a command reaches a member, which aborts its current pass with GROUP and takes HUBREQ. -/
  | hubEndCommand (g : CellId) (c : Nat)
  /-- COMMAND_COMPLETE (R342). The last member ends, the status is chosen, and the result, completion and MSI-X are written. -/
  | commandComplete (c : Nat)
  /-- LINK_UP (R320). A PCIe link enters L0, and the port offers its version once the module is READY. `mps` is the maximum payload size that
  the host configures (R312). -/
  | linkUp (p : PortId) (rate : LinkRate) (mps : BitVec 2)
  /-- LINK_DOWN (R348). A PCIe link leaves L0, and partial packets and unsent commands are dropped. -/
  | linkDown (p : PortId)
  /-- FLR (R349). A Function Level Reset acts as a link departure and return. -/
  | flr (p : PortId)
  /-- PERST_ASSERT (R487). PERST# holds a port out of L0. -/
  | perstAssert (p : PortId) (level : Bool)
  /-- VERSION_GO (R320). A host write of PCI_VHOSTp with GO negotiates the port's version. -/
  | versionGo (p : PortId) (v : Word32)
  /-- PPS_EDGE (R361). A 1PPS rising edge captures track time and gives a loop sample. -/
  | ppsEdge
  /-- PPSLOSS (R361). No 1PPS edge arrives for 1.5 s. -/
  | ppsloss
  /-- PTM_DIALOGUE (R362). A periodic PTM exchange gives a loop sample. -/
  | ptmDialogue (x : PtmTimes)
  /-- PTMERR (R362). A PTM dialogue gets no response within 10 µs. -/
  | ptmerr
  /-- TIME_CHANGE_APPLY (R357). A decided INC change or step takes effect in the hub and every cell 64 hc later. -/
  | timeChangeApply
  /-- WRAP (R374). Bit 40 of track time changes, and a WRAP record is emitted. -/
  | wrap
  /-- EPHEMERIS_REPEAT (R371). The once-per-second 8-probe remeasurement of a port's Ephemeris entry. -/
  | ephemerisRepeat (p : LinkId)
  /-- PROBE (R389). A PROBE arrives and is stamped and answered. -/
  | probe (p : LinkId)
  /-- PROBE_REPLY (R389). A PROBE_REPLY arrives and completes an exchange. -/
  | probeReply (p : LinkId) (peerSet : Bool)
  /-- HELLO (R388). A peer's HELLO arrives and is checked against the Atlas wiring. -/
  | hello (p : LinkId)
  /-- HELLO_ACK (R388). A peer's HELLO_ACK arrives and settles the agreed version. -/
  | helloAck (p : LinkId)
  /-- FRAME (R384). An optical frame arrives and is decoded, accepted or discarded, with NAK, replay and credit handling. -/
  | frame (p : LinkId) (fr : Frame)
  /-- RETRAIN (R380). Light loss, an uncorrectable-codeword count or a FACK timeout starts a port retrain. -/
  | retrain (p : LinkId) (why : RetrainWhy)
  /-- RETRAIN_COMPLETE (R380). A retrain ends, and the port replays and remeasures or goes down. -/
  | retrainComplete (p : LinkId) (res : LaneResult)
  /-- OPTICAL_LOAD_CURVE (R380). The 1 ms correction of laser bias and equaliser offset. -/
  | opticalLoadCurve (temps : List Int) (mv : Nat)
  /-- OPTICAL_ORBIT_PACKET (R396). An orbit packet arrives on an optical port and is checked and delivered to its cell. -/
  | opticalOrbitPacket (p : LinkId)
  /-- PG_GET (R400). A PG_GET reaches a target, or is forwarded, and the page engine serves it. -/
  | pgGet (p : LinkId)
  /-- PG_DATA (R400). A PG_DATA part arrives and is written to LOCAL; STATUS follows after part 15. -/
  | pgData (p : LinkId)
  /-- PG_PUT (R401). A PG_PUT part arrives and is buffered; after part 15 the page is written and notified. -/
  | pgPut (p : LinkId)
  /-- PG_ACK (R402). A PG_ACK arrives, and the operation's STATUS is written. -/
  | pgAck (p : LinkId)
  /-- GET (R400). A posted GET descriptor is read and checked, and PG_GET is sent. -/
  | get
  /-- PUT (R401). A posted PUT descriptor is read and checked, and the PG_PUT parts are sent. -/
  | put
  /-- PAGE_TIMEOUT (R402). A page operation gets no answer within 1 ms and completes with TIMEOUT. -/
  | pageTimeout (reqid : BitVec 16)
  /-- CACHE_FILL (R309). An HBM fill in flight returns and is installed, or is dropped after an invalidation or a write. -/
  | cacheFill (t : BitVec 2)
  /-- RECENTRE (R270). A pseudo-channel's 32 ms re-centring window. -/
  | recentre (c : ChanId)
  /-- HBM_LOAD_CURVE (R270). The 1 ms lookup of stack temperature and input band for delay-code corrections. -/
  | hbmLoadCurve (temps : List Int) (mv : Nat)
  /-- SCRUB (R441). A background scrub read of one unit, with correction and write-back. `ups` are the faults that have struck
  the stores since the last one (log 57). -/
  | scrub (u : ScrubUnit) (ups : List Upset)
  /-- HEALTH_LIST_WRITE (R410). A fenced pseudo-channel is written to the flash health list. -/
  | healthListWrite
  /-- ERROR_RECORD (R454). An error record is admitted, merged or numbered, marks touched commands and raises notices. -/
  | errorRecord (src : RecSource)
  /-- WATCHDOG (R248). The hub watchdog fires for a cell and resets it. -/
  | watchdog (g : CellId)
  /-- CELL_RESET (R455). A cell reset is admitted, owned commands end, and the cell begins self-test, zeroing and reload. -/
  | cellReset (g : CellId) (why : ResetWhy)
  /-- CELL_RESET_DONE (R455). A reset cell's reload ends, CELL_FW runs and DOWN clears, or the group becomes unformed. -/
  | cellResetDone (g : CellId) (pass : Bool)
  /-- SELFTEST (R448). The rotating self-test starts on an eligible cell. -/
  | selftest (g : CellId)
  /-- SELFTEST_DONE (R448). A self-test ends, and a failed test resets the cell. -/
  | selftestDone (g : CellId) (pass : Bool)
  /-- SAFE_STOP (R446). A hub lockstep mismatch or hub memory error stops the hub. -/
  | safeStop (memory : Bool)
  /-- POWER_ON (R490). The input rises above 38 V, and the rails soft-start. -/
  | powerOn (mv : Nat)
  /-- ROM (R423). Start phase 0 after soft-start: self-check, fuses, flash, links and track time begin. -/
  | rom (scanen : Bool)
  /-- VERIFY (R421). The Atlas header, directory and signatures are checked. -/
  | verify
  /-- HUBFW (R423). The hub firmware is streamed, hashed and started. -/
  | hubfw
  /-- CONFIG (R415). The configuration sections are loaded and checked. -/
  | config
  /-- TRAIN (R423). HBM, optical and cell training, zeroing and identity derivation run in parallel. -/
  | train (res : TrainResult)
  /-- HBMZERO (R254). Every live HBM sector is zeroed, and the capacity is checked. -/
  | hbmzero
  /-- LOAD (R424). The image sections are streamed and hashed. -/
  | load
  /-- CELLINIT (R423). CELL_FW runs in every present cell, and groups are formed. -/
  | cellinit
  /-- READY (R425). The start ports close, the boot record is written, the SVN may advance and the ports are offered. -/
  | ready
  /-- PROGRAM (R433). Flash operation that writes a 64 KiB block of the standby slot. -/
  | program
  /-- ACTIVATE (R433). Flash operation that verifies the standby slot and makes it ACTIVE. -/
  | activate
  /-- CLEARHEALTH (R433). Flash operation that clears health-list entries. -/
  | clearhealth
  /-- BURNKEY (R433). Flash operation that burns the customer key hash while the fuse is blank. -/
  | burnkey
  /-- RESTART (R428). Flash operation that restarts the module as a power cycle with the converters on. -/
  | restart
  /-- FLASH_OP_DONE (R433). A flash operation finishes and sets BOOT_FLSTAT. -/
  | flashOpDone
  /-- GOVERNOR_WINDOW (R493). An 1,800 hc governor window ends, and the arithmetic clock divider D is recomputed. -/
  | governorWindow (tjHalf : Int) (mv : Nat) (pa pf : Nat)
  /-- THERMAL_SHUTDOWN (R494). A die at 112 °C or more for 1 ms turns the converters off. -/
  | thermalShutdown (tjHalf : Int) (us : Nat)
  /-- POWER_OFF (R491). Input power is lost, and all state except flash is lost. -/
  | powerOff
  /-- AUX_SENSE (R485). The AUX_SENSE pin changes and sets or clears HUB_MOD_STAT.AUX. -/
  | auxSense (level : Bool)
  /-- BYPASS (R486). JTAG BYPASS instruction. -/
  | bypass
  /-- IDCODE (R486). JTAG IDCODE instruction. -/
  | idcode
  /-- SAMPLE_PRELOAD (R486). JTAG SAMPLE/PRELOAD instruction. -/
  | samplePreload (pins : List Bool)
  /-- EXTEST (R486). JTAG pin-driving instruction, accepted only with SCANEN. -/
  | extest (pins : List Bool)
  /-- SMBUS_MOD_STAT (R488). SMBus command 0x01 that reads HUB_MOD_STAT. -/
  | smbusModStat
  /-- SMBUS_BOOT_STAT (R488). SMBus command 0x02 that reads BOOT_STAT. -/
  | smbusBootStat
  /-- SMBUS_INPUT_VOLTAGE (R488). SMBus command 0x10 that reads the input voltage. -/
  | smbusInputVoltage (v : BitVec 16)
  /-- SMBUS_INPUT_CURRENT (R488). SMBus command 0x11 that reads the input current. -/
  | smbusInputCurrent (v : BitVec 16)
  /-- SMBUS_INPUT_POWER (R488). SMBus command 0x12 that reads the input power. -/
  | smbusInputPower (v : BitVec 16)
  /-- SMBUS_RAIL_VOLTAGES (R488). SMBus command 0x13 that reads the rail voltages. -/
  | smbusRailVoltages (v : BitVec 128)
  /-- SMBUS_JUNCTION (R488). SMBus command 0x20 that reads the hottest junction temperature. -/
  | smbusJunction (v : BitVec 16)
  /-- SMBUS_COOLANT_INLET (R488). SMBus command 0x21 that reads the coolant inlet temperature. -/
  | smbusCoolantInlet (v : BitVec 16)
  /-- SMBUS_GOV_STAT (R488). SMBus command 0x22 that reads HUB_GOV_STAT. -/
  | smbusGovStat
  /-- SMBUS_SAFE_STAT (R488). SMBus command 0x31 that reads SAFE_STAT. -/
  | smbusSafeStat
  /-- SMBUS_LOG_INDEX (R488). SMBus command 0x39 that sets the SAFE_LOG index. -/
  | smbusLogIndex (i : Byte) (pecOk : Bool)
  /-- SMBUS_LOG_READ (R488). SMBus command 0x3A that reads record SAFE_LOGi. -/
  | smbusLogRead
  /-- SMBUS_TIME_OF_DAY (R359). SMBus command 0x60 that delivers a time-of-day message. -/
  | smbusTimeOfDay (msg : BitVec 256) (pecOk : Bool)
  /-- SMBUS_RESTART (R488). SMBus command 0x70 that restarts a STOPPED module. -/
  | smbusRestart (v : Byte) (pecOk : Bool)
  /-- SAMPLE (R462). A write of TRC_CNT_CTL.SAMPLE latches the counters, tag and stall reasons. -/
  | sample (g : CellId) (by' : Initiator)
  /-- TRC_SEL_WRITE (R461). A write of TRC_SELk selects an engine and reason and zeroes TRC_SELCNTk. -/
  | trcSelWrite (g : CellId) (by' : Initiator) (k : BitVec 2) (v : Word64)
  /-- MARK (R461). A write of TRC_MARK emits a MARK record. -/
  | mark (g : CellId) (by' : Initiator) (v : Word64)
  /-- LOGBOOK_WRITE (R466). A queued Logbook record is written to the ring within the budget, with LOST records after drops. -/
  | logbookWrite
  /-- SURVEY (R471). A write of TRC_SURVEY.GO, or an automatic trigger, starts a Survey. -/
  | survey (by' : Initiator)
  /-- SURVEY_DONE (R471). A Survey finishes writing its entries. -/
  | surveyDone
  /-- ECLIPSE_TICK (R476). The tick hc arrives, the module freezes and a consistent snapshot is written. -/
  | eclipseTick
  /-- STOP_NOW (R480). A write of TRC_ECL_CTL.NOW freezes units as the stop arrives. -/
  | stopNow (by' : Initiator)
  /-- TRC_ECL_RELEASE (R478). A write of TRC_ECL_CTL.RELEASE releases a frozen module. -/
  | trcEclRelease (by' : Initiator)
  /-- TRC_ECL_CANCEL (R481). A write of TRC_ECL_CTL.CANCEL cancels a scheduled Eclipse. -/
  | trcEclCancel (by' : Initiator)
  /-- RELTIME_RELEASE (R478). Track time reaches RELTIME, and the module resumes. -/
  | reltimeRelease
  /-- OBSWIN_READ (R481). A write of TRC_OBSWIN.ADDR starts a 64-byte window read. -/
  | obswinRead (by' : Initiator) (a : BitVec 46)
  /-- OBSWIN_READY (R481). The window read completes and sets READY. -/
  | obswinReady
  /-- PILOT_WRITEBACK (R207). A pilot result of latency L, such as a local load, a multiply or a divide, lands in its register at the end of cc I + L − 1 and releases its scoreboard entry. -/
  | pilotWriteback (g : CellId)
  /-- VECTOR_WRITEBACK (R147). A vector instruction or vector load writes its destination at the end of cc I + L − 1, or P0 + L − 1 for a load, and from then on readers see the new value. -/
  | vectorWriteback (g : CellId) (upset : Option LaneUpset)
  /-- ACQR_COMPLETE (R261). A module- or chain-scope ACQR invalidation reaches the last line of its range, and the ACQR completes and releases the held accesses. -/
  | acqrComplete (g : CellId)
  /-- PPS_OUT_EDGE (R365). The PPS_OUT pin rises when bits [63:30] of track time change, and falls when bits [29:0] reach 0x0666_6666. -/
  | ppsOutEdge
  /-- REGISTER_READ (R9). A host BAR2 read of a register whose RC field returns its value and then clears that field. -/
  | registerRead (p : PortId) (a : BarAddr) (half : Half)
  /-- D3HOT (R312). A host puts a port's function into D3hot, which closes BAR access, or returns it to D0. -/
  | d3hot (p : PortId) (d3 : Bool)
deriving DecidableEq, Repr

end Sys2Proof
end

