-- ==== Sys2Proof/Decode.lean ====
section
/-! DEFINITION. The opcode table gives its rows no bits, so no word spells a command (`decodeTableWord`). Below it are the
formats of the pilot's and the vector unit's instruction words (R131, R162): the model needs an instruction's word where an
exception saves it (R229). -/

namespace Sys2Proof

/-- The command that a word of the opcode table spells. No row of the table gives bits: none. -/
def decodeTableWord (_nbits _w : Nat) : Option Instr := none

/-- A field placed at bit `at'` (R7). -/
def fieldAt {n : Nat} (v : BitVec n) (at' : Nat) : Nat := v.toNat * 2 ^ at'

/-- Format R (R162): fn is `hi` above the row's six-bit code. -/
def encR (op code : Nat) (f : RFmt) : Word32 :=
  BitVec.ofNat 32 (op * 2 ^ 26 + fieldAt f.rd 21 + fieldAt f.ra 16 + fieldAt f.rb 11 + fieldAt f.hi 6 + code)

/-- Format R of FOP (R173): fmt, then the operation fn[8:0], of which the row gives the low six bits. -/
def encF (code : Nat) (f : FFmt) : Word32 :=
  BitVec.ofNat 32 (0b101100 * 2 ^ 26 + fieldAt f.rd 21 + fieldAt f.ra 16 + fieldAt f.rb 11 + fieldAt f.fmt 9
    + fieldAt f.hi 6 + code)

/-- Format R of WOP (R178): the type, then the operation fn[6:0], of which the row gives the low six bits. -/
def encW (code : Nat) (f : WFmt) : Word32 :=
  BitVec.ofNat 32 (0b101110 * 2 ^ 26 + fieldAt f.rd 21 + fieldAt f.ra 16 + fieldAt f.rb 11 + fieldAt f.ty 7
    + fieldAt f.hi 6 + code)

/-- Format I (R162). -/
def encI (op : Nat) (f : IFmt) : Word32 :=
  BitVec.ofNat 32 (op * 2 ^ 26 + fieldAt f.rd 21 + fieldAt f.ra 16 + f.imm.toNat)

/-- Format S (R162). -/
def encS (op : Nat) (f : SFmt) : Word32 :=
  BitVec.ofNat 32 (op * 2 ^ 26 + fieldAt f.rs 21 + fieldAt f.ra 16 + f.imm.toNat)

/-- Format B (R162). -/
def encB (op : Nat) (f : BFmt) : Word32 :=
  BitVec.ofNat 32 (op * 2 ^ 26 + fieldAt f.ra 21 + fieldAt f.rb 16 + f.imm.toNat)

/-- Format J (R162). -/
def encJ (op : Nat) (f : JFmt) : Word32 := BitVec.ofNat 32 (op * 2 ^ 26 + f.imm.toNat)

/-- Format M (R162). -/
def encM (sub : Nat) (f : MFmt) : Word32 :=
  BitVec.ofNat 32 (0b001011 * 2 ^ 26 + fieldAt f.rd 21 + sub * 2 ^ 18 + fieldAt f.hw 16 + f.imm.toNat)

/-- Format BF (R162). -/
def encBf (fn : Nat) (f : BfFmt) : Word32 :=
  BitVec.ofNat 32 (0b001100 * 2 ^ 26 + fieldAt f.rd 21 + fieldAt f.ra 16 + fieldAt f.pos 10 + fieldAt f.lenm1 4 + fn)

/-- Format SH (R162). -/
def encSh (fn : Nat) (f : ShFmt) : Word32 :=
  BitVec.ofNat 32 (0b001010 * 2 ^ 26 + fieldAt f.rd 21 + fieldAt f.ra 16 + fn * 2 ^ 12 + fieldAt f.mid 6 + f.shamt.toNat)

/-- Format RP (R162). -/
def encRp (op : Nat) (f : RpFmt) : Word32 :=
  BitVec.ofNat 32 (0b001110 * 2 ^ 26 + fieldAt f.rd 21 + fieldAt f.ra 16 + fieldAt f.rb 11 + op * 2 ^ 8 + fieldAt f.ew 6
    + f.low.toNat)

/-- Format FM (R162). -/
def encFm (op : Nat) (f : FmFmt) : Word32 :=
  BitVec.ofNat 32 (0b101101 * 2 ^ 26 + fieldAt f.fd 21 + fieldAt f.fa 16 + fieldAt f.fb 11 + fieldAt f.fc 6
    + fieldAt f.fmt 4 + op * 2 ^ 2 + f.low.toNat)

/-- Format CV (R162). -/
def encCv (f : CvFmt) : Word32 :=
  BitVec.ofNat 32 (0b100011 * 2 ^ 26 + fieldAt f.rd 21 + fieldAt f.ra 16 + fieldAt f.src 12 + fieldAt f.dst 8 + f.low.toNat)

/-- Format Y (R162). -/
def encY (fn : Nat) (f : YFmt) : Word32 :=
  BitVec.ofNat 32 (0b100010 * 2 ^ 26 + fieldAt f.rd 21 + fieldAt f.ra 16 + fieldAt f.scope 14 + fn * 2 ^ 12 + f.imm.toNat)

/-- Format K (R162). -/
def encK (op fn : Nat) (f : KFmt) : Word32 :=
  BitVec.ofNat 32 (op * 2 ^ 26 + fieldAt f.rd 21 + fieldAt f.ra 16 + fieldAt f.imm 6 + fn)

/-- Format C (R162). -/
def encC (f : CFmt) : Word32 :=
  BitVec.ofNat 32 (0b111110 * 2 ^ 26 + fieldAt f.rd 21 + fieldAt f.ra 16 + fieldAt f.rb 11 + fieldAt f.imm 4 + f.entry.toNat)

/-- Format VR (R131). -/
def encVr (fn : Nat) (f : VrFmt) : Word32 :=
  BitVec.ofNat 32 (0b110000 * 2 ^ 26 + fieldAt f.vd 21 + fieldAt f.va 16 + fieldAt f.vb 11 + fieldAt f.mp 7
    + fieldAt f.sc 6 + fn)

/-- Format VF (R131). -/
def encVf (op : Nat) (f : VfFmt) : Word32 :=
  BitVec.ofNat 32 (0b110001 * 2 ^ 26 + fieldAt f.vd 21 + fieldAt f.va 16 + fieldAt f.vb 11 + fieldAt f.mp 7
    + fieldAt f.sc 6 + op * 2 ^ 4 + f.low.toNat)

/-- Format VM (R131). -/
def encVm (st : Nat) (f : VmFmt) : Word32 :=
  BitVec.ofNat 32 (0b110010 * 2 ^ 26 + fieldAt f.vt 21 + fieldAt f.sa 16 + fieldAt f.sb 11 + fieldAt f.mp 7 + st * 2 ^ 6
    + fieldAt f.mode 4 + fieldAt f.ew 2 + f.low.toNat)

/-- Format VC (R131). -/
def encVc (f : VcFmt) : Word32 :=
  BitVec.ofNat 32 (0b110011 * 2 ^ 26 + fieldAt f.vd 21 + fieldAt f.vs 16 + fieldAt f.src 12 + fieldAt f.dst 8
    + fieldAt f.mp 4 + f.part.toNat)

/-- Format VQ (R131). -/
def encVq (f : VqFmt) : Word32 :=
  BitVec.ofNat 32 (0b110100 * 2 ^ 26 + fieldAt f.vd 21 + fieldAt f.vs 16 + fieldAt f.ve 11 + fieldAt f.fmt 7
    + fieldAt f.part 4 + f.low.toNat)

/-- Format VS (R131). -/
def encVs (fn : Nat) (f : VsFmt) : Word32 :=
  BitVec.ofNat 32 (0b110101 * 2 ^ 26 + fieldAt f.d 21 + fieldAt f.a 16 + fieldAt f.b 11 + fieldAt f.mp 7 + fn)

end Sys2Proof
end

