-- ==== Sys2Proof/Config.lean ====
section
/-! DEFINITION. What one module fixes, and the values the manual leaves open. An `opaque` constant has no body:
nothing can be proved of its value, so a claim that holds, holds whatever it is. -/

namespace Sys2Proof.Config

/-- R281: which source byte an overlapped destination byte of a COPY receives "is not defined". The first argument is
the state's free-value counter, the second the destination byte's index; the answer is taken modulo the source's length,
so the byte is some byte of the source range, as R281 says. FREE VALUE (log 2). -/
opaque overlapByte : Nat → Nat → Nat

/-- R419: the SHA-256 of the Riral root public key held in the boot ROM. A free constant (log 6). -/
opaque riralKeyHash : BitVec 256

/-- R486: Riral's JEDEC manufacturer code, which the manual names and does not give. A free constant (log 6). -/
opaque jedecCode : BitVec 11

/-- R480: the freeze offset of a cell after STOP_NOW, in hc, which the manual bounds by 40 and does not give. The
answer is taken modulo 41. FREE VALUE (log 2). -/
opaque freezeOffset : Nat → Nat → Nat

/-- R477: the flit of a remote response in flight, whose layout on the fabric the manual does not give: the state's free-value
counter and the entry's number. FREE VALUE (log 2). -/
opaque responseFlit : Nat → Nat → FlitBits

/-- R223: INSN of a fault that a register access of a pilot raises, where the command carries no instruction word. The state's free-value
counter. FREE VALUE (log 2). -/
opaque faultInsn : Nat → BitVec 32

end Sys2Proof.Config
end

