-- ==== Sys2Proof/Machine/Mem.lean ====
section
/-! DEFINITION. Byte stores: the local store, the instruction window, a scratch slice, HBM and the flash store are each one
`Mem`. An unlisted byte reads as 0, the value R254 writes at start (log 3). -/

namespace Sys2Proof.Machine

/-- A byte store in canonical form: addresses strictly rising, no listed zero. `bad` lists the code units that hold an
uncorrectable error (R253, R264, R440): units of 8 bytes in SRAM, sectors of 64 bytes in HBM. `soft` lists those that hold errors which
the code corrects, with how many; `ce` is the corrected-error count of an SRAM store (R253). -/
structure Mem where
  bytes : List (Nat × Byte)
  bad : List Nat
  soft : List (Nat × Nat) := []
  ce : Nat := 0
deriving DecidableEq, Repr

/-- A store in which nothing is listed. -/
def Mem.empty : Mem := { bytes := [], bad := [] }

/-- What the list holds at `a`. -/
def cellsRead (l : List (Nat × Byte)) (a : Nat) : Byte :=
  match l with
  | [] => 0
  | (k, v) :: rest => if k = a then v else cellsRead rest a

/-- The list without `a`. -/
def cellsErase (l : List (Nat × Byte)) (a : Nat) : List (Nat × Byte) := l.filter fun e => e.1 != a

/-- Put a byte in address order; `a` is not listed. -/
def cellsInsert (l : List (Nat × Byte)) (a : Nat) (v : Byte) : List (Nat × Byte) :=
  match l with
  | [] => [(a, v)]
  | (k, w) :: rest => if k < a then (k, w) :: cellsInsert rest a v else (a, v) :: (k, w) :: rest

/-- Write one byte; the value an unlisted address reads as is not listed. -/
def cellsWrite (l : List (Nat × Byte)) (a : Nat) (v : Byte) : List (Nat × Byte) :=
  if v = 0 then cellsErase l a else cellsInsert (cellsErase l a) a v

/-- The byte at `a`. -/
def Mem.read (m : Mem) (a : Nat) : Byte := cellsRead m.bytes a

/-- Write the byte at `a`. -/
def Mem.write (m : Mem) (a : Nat) (v : Byte) : Mem := { m with bytes := cellsWrite m.bytes a v }

/-- `n` bytes from `a`. -/
def Mem.readBytes (m : Mem) (a : Nat) : Nat → List Byte
  | 0 => []
  | n + 1 => m.read a :: m.readBytes (a + 1) n

/-- Write bytes from `a` upward. -/
def Mem.writeBytes (m : Mem) (a : Nat) : List Byte → Mem
  | [] => m
  | b :: rest => (m.write a b).writeBytes (a + 1) rest

/-- R6: the number that bytes spell, little-endian. -/
def leNat : List Byte → Nat
  | [] => 0
  | b :: rest => b.toNat + 256 * leNat rest

/-- R6: the low `n` bytes of a number, little-endian. -/
def leBytes (v : Nat) : Nat → List Byte
  | 0 => []
  | n + 1 => BitVec.ofNat 8 v :: leBytes (v / 256) n

/-- The number in the `n` bytes at `a` (R6). -/
def Mem.readN (m : Mem) (a n : Nat) : Nat := leNat (m.readBytes a n)

/-- Write the low `n` bytes of a number at `a` (R6). -/
def Mem.writeN (m : Mem) (a n v : Nat) : Mem := m.writeBytes a (leBytes v n)

/-- Whether `n` bytes at `a` meet unit `u`. -/
def unitMet (unit a n u : Nat) : Bool := u * unit < a + n && a < u * unit + unit

/-- Whether `n` bytes at `a` do not cover unit `u` whole. -/
def unitKept (unit a n u : Nat) : Bool := u * unit < a || a + n < u * unit + unit

/-- R253, R264: a read or a partial write of `n` bytes at `a` corrects what its units hold, and writes it back in place. -/
def Mem.correct (m : Mem) (unit a n : Nat) : Mem :=
  { m with soft := m.soft.filter fun e => !unitMet unit a n e.1
           ce := m.ce + (m.soft.filter fun e => unitMet unit a n e.1).length }

/-- R253, R264: `n` more errors strike unit `u`; with more than `top` the code no longer corrects it. -/
def Mem.strike (m : Mem) (top u n : Nat) : Mem :=
  let k := n + ((m.soft.filter fun e => e.1 == u).map Prod.snd).sum
  let rest := m.soft.filter fun e => e.1 != u
  if k = 0 then m
  else if k ≤ top then { m with soft := rest ++ [(u, k)] }
  else { m with soft := rest, bad := if m.bad.any (· == u) then m.bad else m.bad ++ [u] }

/-- Zero `n` bytes from `a`: they are no longer listed, and their units' errors are gone (R254, R440). -/
def Mem.zeroRange (m : Mem) (unit a n : Nat) : Mem :=
  { m with bytes := m.bytes.filter fun e => e.1 < a || a + n ≤ e.1
           bad := m.bad.filter (unitKept unit a n)
           soft := m.soft.filter fun e => unitKept unit a n e.1 }

/-- Whether one of the `n` bytes at `a` lies in a unit with an uncorrectable error (R440). -/
def Mem.anyBad (m : Mem) (unit a n : Nat) : Bool := m.bad.any (unitMet unit a n)

/-- The first unit with an uncorrectable error that the `n` bytes at `a` meet; 0 for none. -/
def Mem.firstBad (m : Mem) (unit a n : Nat) : Nat := ((m.bad.filter (unitMet unit a n)).min?).getD 0

/-- R440, R253: a write clears the error of each unit that it covers whole, and leaves that of a unit it covers in part, where the code does
not correct it. -/
def Mem.store (m : Mem) (unit a : Nat) (bs : List Byte) : Mem :=
  let w := m.writeBytes a bs
  let kept := m.soft.filter fun e => unitKept unit a bs.length e.1
  { w with bad := w.bad.filter (unitKept unit a bs.length)
           soft := kept.filter fun e => !unitMet unit a bs.length e.1
           ce := m.ce + (kept.filter fun e => unitMet unit a bs.length e.1).length }

/-- The canonical form of the byte list. -/
def Mem.wf (m : Mem) : Bool :=
  decide (m.bytes.Pairwise fun x y => x.1 < y.1) && m.bytes.all fun e => e.2 != 0

/-- Code unit of the SRAM stores (R253). -/
def sramUnit : Nat := 8

/-- Code unit of HBM (R264). -/
def hbmUnit : Nat := 64

/-- R253: wrong bits that SEC-DED corrects in a unit. -/
def sramTop : Nat := 1

/-- R264: wrong symbols that the code of HBM corrects in a sector. -/
def hbmTop : Nat := 3

end Sys2Proof.Machine
end

