-- ==== Sys2Proof/Machine/Hash.lean ====
section
/-! DEFINITION. The hash engine (R419, R420, R431, R432): SHA-256 (FIPS 180-4), HMAC (RFC 2104), HKDF (RFC 5869) and SLH-DSA-SHA2-128s (FIPS 205),
the standards that R420 and R431 name; the text is PRESUMED to be theirs (log 83). -/

namespace Sys2Proof.Machine

/-! Byte strings, most significant byte first. -/

/-- The number that bytes spell, most significant first. -/
def beNat (bs : List Byte) : Nat := bs.foldl (fun a b => 256 * a + b.toNat) 0

/-- The low `n` bytes of a number, most significant first. -/
def beBytes (v n : Nat) : List Byte := (leBytes v n).reverse

/-! SHA-256 (FIPS 180-4). -/

/-- FIPS 180-4, 4.2.2. -/
def shaK : List Word32 :=
  [0x428A2F98, 0x71374491, 0xB5C0FBCF, 0xE9B5DBA5, 0x3956C25B, 0x59F111F1, 0x923F82A4, 0xAB1C5ED5]
    ++ [0xD807AA98, 0x12835B01, 0x243185BE, 0x550C7DC3, 0x72BE5D74, 0x80DEB1FE, 0x9BDC06A7, 0xC19BF174]
    ++ [0xE49B69C1, 0xEFBE4786, 0x0FC19DC6, 0x240CA1CC, 0x2DE92C6F, 0x4A7484AA, 0x5CB0A9DC, 0x76F988DA]
    ++ [0x983E5152, 0xA831C66D, 0xB00327C8, 0xBF597FC7, 0xC6E00BF3, 0xD5A79147, 0x06CA6351, 0x14292967]
    ++ [0x27B70A85, 0x2E1B2138, 0x4D2C6DFC, 0x53380D13, 0x650A7354, 0x766A0ABB, 0x81C2C92E, 0x92722C85]
    ++ [0xA2BFE8A1, 0xA81A664B, 0xC24B8B70, 0xC76C51A3, 0xD192E819, 0xD6990624, 0xF40E3585, 0x106AA070]
    ++ [0x19A4C116, 0x1E376C08, 0x2748774C, 0x34B0BCB5, 0x391C0CB3, 0x4ED8AA4A, 0x5B9CCA4F, 0x682E6FF3]
    ++ [0x748F82EE, 0x78A5636F, 0x84C87814, 0x8CC70208, 0x90BEFFFA, 0xA4506CEB, 0xBEF9A3F7, 0xC67178F2]

/-- The eight working words. -/
structure Sha where
  a : Word32
  b : Word32
  c : Word32
  d : Word32
  e : Word32
  f : Word32
  g : Word32
  h : Word32
deriving DecidableEq, Repr

/-- FIPS 180-4, 5.3.3. -/
def Sha.first : Sha :=
  { a := 0x6A09E667, b := 0xBB67AE85, c := 0x3C6EF372, d := 0xA54FF53A
    e := 0x510E527F, f := 0x9B05688C, g := 0x1F83D9AB, h := 0x5BE0CD19 }

/-- FIPS 180-4, 5.1.1: the padding behind `n` bytes of message. -/
def shaPad (n : Nat) : List Byte := 0x80 :: List.replicate ((119 - n % 64) % 64) 0 ++ beBytes (8 * n) 8

/-- FIPS 180-4, 4.1.2: σ of a word: two rotations and a shift. -/
def shaSigma (r s n : Nat) (x : Word32) : Word32 := x.rotateRight r ^^^ x.rotateRight s ^^^ (x >>> n)

/-- FIPS 180-4, 4.1.2: Σ of a word. -/
def shaSum (r s n : Nat) (x : Word32) : Word32 := x.rotateRight r ^^^ x.rotateRight s ^^^ x.rotateRight n

/-- FIPS 180-4, 6.2.2, step 1: `n` more words of the message schedule; the list holds the newest first. -/
def shaSchedule : Nat → List Word32 → List Word32
  | 0, w => w
  | n + 1, w =>
    shaSchedule n ((shaSigma 17 19 10 (w.getD 1 0) + w.getD 6 0 + shaSigma 7 18 3 (w.getD 14 0) + w.getD 15 0) :: w)

/-- FIPS 180-4, 6.2.2, step 3: one round. -/
def Sha.round (x : Sha) (k w : Word32) : Sha :=
  let t1 := x.h + shaSum 6 11 25 x.e + ((x.e &&& x.f) ^^^ (~~~x.e &&& x.g)) + k + w
  let t2 := shaSum 2 13 22 x.a + ((x.a &&& x.b) ^^^ (x.a &&& x.c) ^^^ (x.b &&& x.c))
  { a := t1 + t2, b := x.a, c := x.b, d := x.c, e := x.d + t1, f := x.e, g := x.f, h := x.g }

/-- FIPS 180-4, 6.2.2, step 4. -/
def Sha.add (x y : Sha) : Sha :=
  { a := x.a + y.a, b := x.b + y.b, c := x.c + y.c, d := x.d + y.d, e := x.e + y.e, f := x.f + y.f, g := x.g + y.g, h := x.h + y.h }

/-- FIPS 180-4, 6.2.2: one block of 64 bytes. -/
def Sha.block (x : Sha) (bs : List Byte) : Sha :=
  let w := (List.range 16).map fun i => (BitVec.ofNat 32 (beNat ((bs.drop (4 * i)).take 4)) : Word32)
  let ws := (shaSchedule 48 w.reverse).reverse
  x.add ((shaK.zip ws).foldl (fun y kw => y.round kw.1 kw.2) x)

/-- The blocks of a padded message, `n` at most. -/
def Sha.blocks (x : Sha) : Nat → List Byte → Sha
  | 0, _ => x
  | n + 1, bs => if bs.isEmpty then x else (x.block (bs.take 64)).blocks n (bs.drop 64)

/-- The digest's bytes. -/
def Sha.bytes (x : Sha) : List Byte := [x.a, x.b, x.c, x.d, x.e, x.f, x.g, x.h].flatMap fun w => beBytes w.toNat 4

/-- SHA-256, as 32 bytes. -/
def shaBytes (bs : List Byte) : List Byte := (Sha.first.blocks (bs.length / 64 + 2) (bs ++ shaPad bs.length)).bytes

/-- SHA-256, its 32 bytes as a number (R6). -/
def sha256 (bs : List Byte) : BitVec 256 := BitVec.ofNat 256 (leNat (shaBytes bs))

/-! HMAC (RFC 2104) and HKDF (RFC 5869), with SHA-256. -/

/-- RFC 2104: the key's block. -/
def hmacKey (k : List Byte) : List Byte :=
  let k1 := if 64 < k.length then shaBytes k else k
  k1 ++ List.replicate (64 - k1.length) 0

/-- RFC 2104. -/
def hmac (k m : List Byte) : List Byte :=
  let pad (v : Byte) : List Byte := (hmacKey k).map fun b => b ^^^ v
  shaBytes (pad 0x5C ++ shaBytes (pad 0x36 ++ m))

/-- RFC 5869, 2.3: blocks T(i) to T(i + n - 1), after block `t`. -/
def hkdfBlocks (prk info : List Byte) : Nat → Nat → List Byte → List Byte
  | 0, _, _ => []
  | n + 1, i, t => let t1 := hmac prk (t ++ info ++ [BitVec.ofNat 8 i]); t1 ++ hkdfBlocks prk info n (i + 1) t1

/-- RFC 5869: `l` bytes. -/
def hkdf (ikm salt info : List Byte) (l : Nat) : List Byte := (hkdfBlocks (hmac salt ikm) info ((l + 31) / 32) 1 []).take l

/-! SLH-DSA-SHA2-128s (FIPS 205): n = 16, h = 63, d = 7, h' = 9, a = 12, k = 14, w = 16, m = 30. -/

/-- FIPS 205, 11.2: a compressed address: its last three words are, by type, the key pair, the chain or the tree height, and the hash or
the tree index. -/
structure Adrs where
  layer : Nat
  tree : Nat
  type : Nat
  pair : Nat
  mid : Nat
  last : Nat
deriving DecidableEq, Repr

/-- FIPS 205, 4.2, 11.2: its 22 bytes. -/
def Adrs.bytes (x : Adrs) : List Byte :=
  beBytes x.layer 1 ++ beBytes x.tree 8 ++ beBytes x.type 1 ++ beBytes x.pair 4 ++ beBytes x.mid 4 ++ beBytes x.last 4

/-- FIPS 205, 4.2: another type, for the same key pair. -/
def Adrs.of (x : Adrs) (type : Nat) : Adrs := { x with type := type, mid := 0, last := 0 }

/-- FIPS 205, 11.2: F, H, T and PRF: one hash of an input under PK.seed and an address. -/
def slhHash (pkSeed : List Byte) (x : Adrs) (m : List Byte) : List Byte :=
  (shaBytes (pkSeed ++ List.replicate 48 0 ++ x.bytes ++ m)).take 16

/-- FIPS 205, 4.1, MGF1 with SHA-256: 30 bytes. -/
def slhMgf (seed : List Byte) : List Byte := (shaBytes (seed ++ beBytes 0 4)).take 30

/-- FIPS 205, 11.2: H_msg. -/
def slhDigest (r pkSeed pkRoot m : List Byte) : List Byte := slhMgf (r ++ pkSeed ++ shaBytes (r ++ pkSeed ++ pkRoot ++ m))

/-- FIPS 205, algorithm 4: `n` digits of `b` bits, most significant first, of a byte string. -/
def slhDigits (bs : List Byte) (b n : Nat) : List Nat :=
  (List.range n).map fun i => beNat bs / 2 ^ (8 * bs.length - b * (i + 1)) % 2 ^ b

/-- Bytes `16 i` to `16 i + 15`. -/
def slhPart (bs : List Byte) (i : Nat) : List Byte := (bs.drop (16 * i)).take 16

/-- FIPS 205, algorithm 5: chain from step `i` on, `s` steps. -/
def slhChain (pkSeed : List Byte) (x : Adrs) (m : List Byte) (i s : Nat) : List Byte :=
  (List.range s).foldl (fun t j => slhHash pkSeed { x with last := i + j } t) m

/-- FIPS 205, algorithms 7 and 8: the 35 digits of a message with its checksum. -/
def wotsDigits (m : List Byte) : List Nat :=
  let d := slhDigits m 4 32
  d ++ slhDigits (beBytes ((d.map fun v => 15 - v).sum * 16) 2) 4 3

/-- FIPS 205, algorithms 6 and 7: the secret of chain `i`. -/
def wotsSecret (skSeed pkSeed : List Byte) (x : Adrs) (i : Nat) : List Byte := slhHash pkSeed { x.of 5 with mid := i } skSeed

/-- FIPS 205, algorithm 6: the public key of a key pair. -/
def wotsPublic (skSeed pkSeed : List Byte) (x : Adrs) : List Byte :=
  slhHash pkSeed (x.of 1) ((List.range 35).flatMap fun i =>
    slhChain pkSeed { x with mid := i } (wotsSecret skSeed pkSeed x i) 0 15)

/-- FIPS 205, algorithm 7. -/
def wotsSign (skSeed pkSeed : List Byte) (x : Adrs) (m : List Byte) : List Byte :=
  (wotsDigits m).zipIdx.flatMap fun v => slhChain pkSeed { x with mid := v.2 } (wotsSecret skSeed pkSeed x v.2) 0 v.1

/-- FIPS 205, algorithm 8. -/
def wotsFromSig (pkSeed : List Byte) (x : Adrs) (sig m : List Byte) : List Byte :=
  slhHash pkSeed (x.of 1) ((wotsDigits m).zipIdx.flatMap fun v =>
    slhChain pkSeed { x with mid := v.2 } (slhPart sig v.2) v.1 (15 - v.1))

/-- FIPS 205, algorithms 9 and 15: node `i` at height `z` of a binary tree whose leaves `leaf` gives; `x` is the address of its nodes. -/
def slhNode (pkSeed : List Byte) (x : Adrs) (leaf : Nat → List Byte) : Nat → Nat → List Byte
  | 0, i => leaf i
  | z + 1, i =>
    slhHash pkSeed { x with mid := z + 1, last := i } (slhNode pkSeed x leaf z (2 * i) ++ slhNode pkSeed x leaf z (2 * i + 1))

/-- FIPS 205, algorithms 10 and 16: the authentication path of leaf `idx`, of height `h`. -/
def slhAuth (pkSeed : List Byte) (x : Adrs) (leaf : Nat → List Byte) (h idx : Nat) : List Byte :=
  (List.range h).flatMap fun j => slhNode pkSeed x leaf j (idx / 2 ^ j ^^^ 1)

/-- FIPS 205, algorithms 11 and 17: the root that leaf `idx` and its authentication path give. -/
def slhRoot (pkSeed : List Byte) (x : Adrs) (leaf auth : List Byte) (h idx : Nat) : List Byte :=
  (List.range h).foldl (fun t k =>
    slhHash pkSeed { x with mid := k + 1, last := idx / 2 ^ (k + 1) }
      (if idx / 2 ^ k % 2 = 0 then t ++ slhPart auth k else slhPart auth k ++ t)) leaf

/-- FIPS 205, algorithm 9: the tree of layer `layer` and number `tree`: the address of its nodes, and its leaves. -/
def xmssNodes (layer tree : Nat) : Adrs := { layer := layer, tree := tree, type := 2, pair := 0, mid := 0, last := 0 }
/-- FIPS 205, algorithm 9. -/
def xmssPair (layer tree i : Nat) : Adrs := { layer := layer, tree := tree, type := 0, pair := i, mid := 0, last := 0 }
/-- FIPS 205, algorithm 9. -/
def xmssLeaf (skSeed pkSeed : List Byte) (layer tree i : Nat) : List Byte := wotsPublic skSeed pkSeed (xmssPair layer tree i)

/-- FIPS 205, algorithm 10: 35 + 9 parts. -/
def xmssSign (skSeed pkSeed : List Byte) (layer tree idx : Nat) (m : List Byte) : List Byte :=
  wotsSign skSeed pkSeed (xmssPair layer tree idx) m
    ++ slhAuth pkSeed (xmssNodes layer tree) (xmssLeaf skSeed pkSeed layer tree) 9 idx

/-- FIPS 205, algorithm 11. -/
def xmssFromSig (pkSeed : List Byte) (layer tree idx : Nat) (sig m : List Byte) : List Byte :=
  slhRoot pkSeed (xmssNodes layer tree) (wotsFromSig pkSeed (xmssPair layer tree idx) sig m) (sig.drop 560) 9 idx

/-- FIPS 205, algorithm 12: layers `j` to `j + n - 1` of the hypertree; `tree` is 512 times the tree's number, plus the leaf's. -/
def htSign (skSeed pkSeed : List Byte) : Nat → Nat → Nat → List Byte → List Byte
  | 0, _, _, _ => []
  | n + 1, j, tree, m =>
    let sig := xmssSign skSeed pkSeed j (tree / 512) (tree % 512) m
    sig ++ htSign skSeed pkSeed n (j + 1) (tree / 512) (xmssFromSig pkSeed j (tree / 512) (tree % 512) sig m)

/-- FIPS 205, algorithm 13: the root that layers `j` to `j + n - 1` of a hypertree signature give. -/
def htFromSig (pkSeed : List Byte) : Nat → Nat → Nat → List Byte → List Byte → List Byte
  | 0, _, _, _, m => m
  | n + 1, j, tree, sig, m =>
    htFromSig pkSeed n (j + 1) (tree / 512) (sig.drop 704) (xmssFromSig pkSeed j (tree / 512) (tree % 512) (sig.take 704) m)

/-- FIPS 205, algorithm 19: what a digest selects: the FORS indices, and the leaf of the lowest layer, counted over all its trees. -/
def slhIndices (digest : List Byte) : List Nat := slhDigits digest 12 14
/-- FIPS 205, algorithm 19. -/
def slhLeaf (digest : List Byte) : Nat :=
  beNat ((digest.drop 21).take 7) % 2 ^ 54 * 512 + beNat ((digest.drop 28).take 2) % 512

/-- FIPS 205, algorithms 14 to 17: the address of FORS of leaf `l`. -/
def forsAdrs (l : Nat) : Adrs := { layer := 0, tree := l / 512, type := 3, pair := l % 512, mid := 0, last := 0 }

/-- FIPS 205, algorithm 14. -/
def forsSecret (skSeed pkSeed : List Byte) (x : Adrs) (i : Nat) : List Byte := slhHash pkSeed { x.of 6 with last := i } skSeed

/-- FIPS 205, algorithm 15: a leaf from its secret. -/
def forsLeaf (pkSeed : List Byte) (x : Adrs) (i : Nat) (sk : List Byte) : List Byte := slhHash pkSeed { x with mid := 0, last := i } sk

/-- FIPS 205, algorithms 16 and 17: tree `t` of FORS: a node's last word counts over the trees before it. -/
def forsAuth (skSeed pkSeed : List Byte) (x : Adrs) (t idx : Nat) : List Byte :=
  (List.range 12).flatMap fun j =>
    slhNode pkSeed x (fun i => forsLeaf pkSeed x i (forsSecret skSeed pkSeed x i)) j (t * 2 ^ (12 - j) + (idx / 2 ^ j ^^^ 1))

/-- FIPS 205, algorithm 16. -/
def forsSign (skSeed pkSeed : List Byte) (x : Adrs) (digest : List Byte) : List Byte :=
  (slhIndices digest).zipIdx.flatMap fun v =>
    forsSecret skSeed pkSeed x (v.2 * 4096 + v.1) ++ forsAuth skSeed pkSeed x v.2 v.1

/-- FIPS 205, algorithm 17: 13 parts a tree. -/
def forsFromSig (pkSeed : List Byte) (x : Adrs) (sig digest : List Byte) : List Byte :=
  slhHash pkSeed (x.of 4) ((slhIndices digest).zipIdx.flatMap fun v =>
    let part := (sig.drop (208 * v.2)).take 208
    slhRoot pkSeed x (forsLeaf pkSeed x (v.2 * 4096 + v.1) (part.take 16)) (part.drop 16) 12 (v.2 * 4096 + v.1))

/-- FIPS 205, algorithm 18: the public key: PK.seed and PK.root. -/
def slhPublic (skSeed pkSeed : List Byte) : List Byte :=
  pkSeed ++ slhNode pkSeed (xmssNodes 6 0) (xmssLeaf skSeed pkSeed 6 0) 9 0

/-- FIPS 205, algorithm 22: the message of the pure form, with an empty context. -/
def slhPure (m : List Byte) : List Byte := [0, 0] ++ m

/-- FIPS 205, algorithms 19 and 22, the deterministic variant: 7,856 bytes. -/
def slhSign (skSeed skPrf pk m : List Byte) : List Byte :=
  let pkSeed := pk.take 16
  let r := (hmac skPrf (pkSeed ++ slhPure m)).take 16
  let d := slhDigest r pkSeed (pk.drop 16) (slhPure m)
  let x := forsAdrs (slhLeaf d)
  let f := forsSign skSeed pkSeed x d
  r ++ f ++ htSign skSeed pkSeed 7 0 (slhLeaf d) (forsFromSig pkSeed x f d)

/-- FIPS 205, algorithms 20 and 24. -/
def slhVerify (pk m sig : List Byte) : Bool :=
  let pkSeed := pk.take 16
  let r := sig.take 16
  let d := slhDigest r pkSeed (pk.drop 16) (slhPure m)
  let f := forsFromSig pkSeed (forsAdrs (slhLeaf d)) ((sig.drop 16).take 2912) d
  sig.length == 7856 && htFromSig pkSeed 7 0 (slhLeaf d) (sig.drop 2928) f == pk.drop 16

/-! Device identity (R431). -/

/-- R431: okm. -/
def identityOkm (secret : BitVec 256) : List Byte :=
  hkdf (leBytes secret.toNat 32) (List.replicate 32 0) ("EL8-M25 identity".toList.map fun c => BitVec.ofNat 8 c.toNat) 48

/-- R431: the identity public key. -/
def identityPublic (secret : BitVec 256) : List Byte :=
  slhPublic ((identityOkm secret).take 16) ((identityOkm secret).drop 32)

/-- R420, R431, R432: a signature under the identity key. -/
def identitySign (secret : BitVec 256) (m : List Byte) : List Byte :=
  let okm := identityOkm secret
  slhSign (okm.take 16) ((okm.drop 16).take 16) (identityPublic secret) m

end Sys2Proof.Machine
end

