-- ==== Sys2Proof/Machine/Float.lean ====
section
/-! DEFINITION. The fifteen element formats (R45 to R48), the value an encoding stands for (R46), and exact arithmetic on
values. A finite value is a sign, a whole number and a power of two, so nothing is lost before the one rounding. -/

namespace Sys2Proof.Machine

/-- R45: the element formats. -/
inductive Elem where
  | fp64
  | fp32
  | fp16
  | bf16
  | e4m3
  | e5m2
  | e3m2
  | e2m3
  | e2m1
  | int32
  | int16
  | int8
  | uint8
  | int4
  | fp12
deriving DecidableEq, Repr

/-- R45: bits of an element. -/
def Elem.width : Elem → Nat
  | .fp64 => 64
  | .fp32 => 32
  | .fp16 => 16
  | .bf16 => 16
  | .e4m3 => 8
  | .e5m2 => 8
  | .e3m2 => 6
  | .e2m3 => 6
  | .e2m1 => 4
  | .int32 => 32
  | .int16 => 16
  | .int8 => 8
  | .uint8 => 8
  | .int4 => 4
  | .fp12 => 12

/-- Whether the format is a floating-point one. -/
def Elem.isFloat : Elem → Bool
  | .int32 | .int16 | .int8 | .uint8 | .int4 => false
  | _ => true

/-- R126, R78, R138: format codes of VT, SRC, DST and of the pass descriptor. -/
def Elem.ofCode (c : Nat) : Option Elem :=
  match c with
  | 0x0 => some .fp64
  | 0x1 => some .fp32
  | 0x2 => some .fp16
  | 0x3 => some .bf16
  | 0x4 => some .fp12
  | 0x5 => some .e4m3
  | 0x6 => some .e5m2
  | 0x7 => some .e3m2
  | 0x8 => some .e2m3
  | 0x9 => some .e2m1
  | 0xA => some .int32
  | 0xB => some .int8
  | 0xC => some .int4
  | 0xD => some .int16
  | 0xE => some .uint8
  | _ => none

/-- R45: mantissa bits of a float format. -/
def Elem.mbits : Elem → Nat
  | .fp64 => 52
  | .fp32 => 23
  | .fp16 => 10
  | .bf16 => 7
  | .e4m3 => 3
  | .e5m2 => 2
  | .e3m2 => 2
  | .e2m3 => 3
  | .e2m1 => 1
  | .fp12 => 6
  | _ => 0

/-- R45: exponent bias of a float format. -/
def Elem.bias : Elem → Nat
  | .fp64 => 1023
  | .fp32 => 127
  | .bf16 => 127
  | .fp16 => 15
  | .e5m2 => 15
  | .fp12 => 15
  | .e4m3 => 7
  | .e3m2 => 3
  | .e2m3 => 1
  | .e2m1 => 1
  | _ => 0

/-- R46: exponent bits. -/
def Elem.ebits (f : Elem) : Nat := f.width - 1 - f.mbits

/-- R45: whether the format has infinities. -/
def Elem.hasInf : Elem → Bool
  | .fp64 | .fp32 | .fp16 | .bf16 | .e5m2 | .fp12 => true
  | _ => false

/-- R45, R47: whether the format has NaN encodings. -/
def Elem.hasNan (f : Elem) : Bool := f.hasInf || f == .e4m3

/-- The all-ones exponent field, in place: the encoding of +infinity where the format has one (R46, R47). -/
def Elem.expOnes (f : Elem) : Nat := (2 ^ f.ebits - 1) * 2 ^ f.mbits

/-- R47: the encoding of the largest finite value. -/
def Elem.maxFinite (f : Elem) : Nat :=
  if f.hasInf then f.expOnes - 1
  else if f == .e4m3 then 0x7E
  else 2 ^ (f.width - 1) - 1

/-- R47: the canonical quiet NaN. Formats without NaN give 0, which R72 writes for them. -/
def Elem.nan (f : Elem) : Nat :=
  if f == .e4m3 then 0x7F
  else if f.hasInf then f.expOnes + 2 ^ (f.mbits - 1)
  else 0

/-- The sign bit's weight. -/
def Elem.signBit (f : Elem) : Nat := 2 ^ (f.width - 1)

/-- R46: exponent of the smallest normal. -/
def Elem.emin (f : Elem) : Int := 1 - (f.bias : Int)

/-- The value of an encoding (R46): a NaN, an infinity, or (−1)^s · m · 2^e. -/
inductive FVal where
  | nan (signalling : Bool)
  | inf (s : Bool)
  | fin (s : Bool) (m : Nat) (e : Int)
deriving DecidableEq, Repr

/-- R46, R47: the value a float encoding stands for; bits above the width are ignored. -/
def Elem.decodeF (f : Elem) (b : Nat) : FVal :=
  let mag := b % 2 ^ (f.width - 1)
  let s := (b / 2 ^ (f.width - 1)) % 2 == 1
  let ex := mag / 2 ^ f.mbits
  let m := mag % 2 ^ f.mbits
  if f.hasInf && ex == 2 ^ f.ebits - 1 then
    if m == 0 then .inf s else .nan (m < 2 ^ (f.mbits - 1))
  else if f == .e4m3 && mag == 0x7F then .nan false
  else if ex == 0 then .fin s m (f.emin - f.mbits)
  else .fin s (2 ^ f.mbits + m) ((ex : Int) - f.bias - f.mbits)

/-- R48: the whole number an integer encoding stands for. -/
def Elem.decodeI (f : Elem) (b : Nat) : Int :=
  let v := b % 2 ^ f.width
  if f == .uint8 then v else if v < 2 ^ (f.width - 1) then v else (v : Int) - 2 ^ f.width

/-- Smallest and largest value of an integer format (R45). -/
def Elem.intMin (f : Elem) : Int := if f == .uint8 then 0 else -(2 ^ (f.width - 1) : Nat)

/-- Largest value of an integer format (R45). -/
def Elem.intMax (f : Elem) : Int := if f == .uint8 then 255 else (2 ^ (f.width - 1) : Nat) - 1

/-- The encoding of a whole number, modulo the width (R70). -/
def Elem.encodeI (f : Elem) (v : Int) : Nat := (v % (2 ^ f.width : Nat)).toNat

/-- A whole number as a value. -/
def FVal.ofInt (v : Int) : FVal := .fin (decide (v < 0)) v.natAbs 0

/-- The value of any encoding: integers as whole numbers. -/
def Elem.decode (f : Elem) (b : Nat) : FVal :=
  if f.isFloat then f.decodeF b else .ofInt (f.decodeI b)

/-- R48: INT8 in block-scaled use is its integer times 2⁻⁶. -/
def mxint8 (b : Nat) : FVal :=
  let v := Elem.decodeI .int8 b
  .fin (decide (v < 0)) v.natAbs (-6)

/-- Whether a value is a signalling NaN (R47). -/
def FVal.isSnan : FVal → Bool
  | .nan q => q
  | _ => false

/-- Whether a value is a NaN. -/
def FVal.isNan : FVal → Bool
  | .nan _ => true
  | _ => false

/-- Whether a value is zero. -/
def FVal.isZero : FVal → Bool
  | .fin _ m _ => m == 0
  | _ => false

/-- The sign of a value; a NaN has none. -/
def FVal.sign : FVal → Bool
  | .nan _ => false
  | .inf s => s
  | .fin s _ _ => s

/-- The value with the other sign. -/
def FVal.neg : FVal → FVal
  | .nan q => .nan q
  | .inf s => .inf (!s)
  | .fin s m e => .fin (!s) m e

/-- The value without its sign. -/
def FVal.abs : FVal → FVal
  | .nan q => .nan q
  | .inf _ => .inf false
  | .fin _ m e => .fin false m e

/-- `m` in units of 2^`lo` where it was counted in units of 2^`e`, `lo ≤ e`. -/
def alignTo (m : Nat) (e lo : Int) : Nat := m <<< (e - lo).toNat

/-- Signed whole number of units. -/
def signedMag (s : Bool) (m : Nat) : Int := if s then -(m : Int) else m

/-- Exact sum of two finite values, with the zero rule of R67. -/
def addFin (s₁ : Bool) (m₁ : Nat) (e₁ : Int) (s₂ : Bool) (m₂ : Nat) (e₂ : Int) : FVal :=
  let lo := min e₁ e₂
  let t := signedMag s₁ (alignTo m₁ e₁ lo) + signedMag s₂ (alignTo m₂ e₂ lo)
  if t = 0 then .fin (s₁ && s₂ && m₁ == 0 && m₂ == 0) 0 lo
  else .fin (decide (t < 0)) t.natAbs lo

/-- R63, R64, R67: the exact sum. Infinities of opposite sign give NaN; the second component says so. -/
def FVal.add (a b : FVal) : FVal × Bool :=
  match a, b with
  | .nan _, _ => (.nan false, false)
  | _, .nan _ => (.nan false, false)
  | .inf s, .inf t => if s == t then (.inf s, false) else (.nan false, true)
  | .inf s, .fin _ _ _ => (.inf s, false)
  | .fin _ _ _, .inf s => (.inf s, false)
  | .fin s₁ m₁ e₁, .fin s₂ m₂ e₂ => (addFin s₁ m₁ e₁ s₂ m₂ e₂, false)

/-- R63, R64, R67: the exact product. Infinity times zero gives NaN; the second component says so. -/
def FVal.mul (a b : FVal) : FVal × Bool :=
  match a, b with
  | .nan _, _ => (.nan false, false)
  | _, .nan _ => (.nan false, false)
  | .inf s, .inf t => (.inf (xor s t), false)
  | .inf s, .fin t m _ => if m == 0 then (.nan false, true) else (.inf (xor s t), false)
  | .fin s m _, .inf t => if m == 0 then (.nan false, true) else (.inf (xor s t), false)
  | .fin s₁ m₁ e₁, .fin s₂ m₂ e₂ => (.fin (xor s₁ s₂) (m₁ * m₂) (e₁ + e₂), false)

/-- Comparison of two values that are no NaN, −0 and +0 equal (R174): the sign of a − b. -/
def FVal.cmp (a b : FVal) : Int :=
  match a, b with
  | .nan _, _ => 0
  | _, .nan _ => 0
  | .inf s, .inf t => if s == t then 0 else if s then -1 else 1
  | .inf s, .fin _ _ _ => if s then -1 else 1
  | .fin _ _ _, .inf s => if s then 1 else -1
  | .fin s₁ m₁ e₁, .fin s₂ m₂ e₂ =>
    let lo := min e₁ e₂
    (signedMag s₁ (alignTo m₁ e₁ lo) - signedMag s₂ (alignTo m₂ e₂ lo)).sign

/-- Whole square root, bit by bit: the largest `r` below 2^`n` + `acc` with r² ≤ x. -/
def isqrtBits (x : Nat) : Nat → Nat → Nat
  | 0, acc => acc
  | n + 1, acc =>
    let r := acc + 2 ^ n
    if r * r ≤ x then isqrtBits x n r else isqrtBits x n acc

/-- ⌊√x⌋. -/
def isqrt (x : Nat) : Nat := isqrtBits x (Nat.log2 x / 2 + 1) 0

end Sys2Proof.Machine
end

