-- ==== Sys2Proof/Machine/Flags.lean ====
section
/-! DEFINITION. Rounding (R56 to R58), the exception flags (R64 to R69), and every floating-point result the engines form
from exact values: arithmetic, conversion (R71, R72), estimates (R137) and block quantisation (R55). -/

namespace Sys2Proof.Machine

/-- R68: the five flags as a field: NX 0, UF 1, OF 2, DZ 3, IV 4. -/
abbrev FFlags := BitVec 5

/-- R68: inexact. -/
def flNX : FFlags := 1

/-- R68: underflow, the result is tiny. -/
def flUF : FFlags := 2

/-- R68: overflow. -/
def flOF : FFlags := 4

/-- R68: division by zero. -/
def flDZ : FFlags := 8

/-- R68: invalid. -/
def flIV : FFlags := 16

/-- A flag where a condition holds. -/
def flIf (c : Bool) (f : FFlags) : FFlags := if c then f else 0

/-- R56: rounding as applied to one result. SR carries its 16-bit draw. -/
inductive Rnd where
  | rne
  | rtz
  | sr (draw : Nat)
deriving DecidableEq, Repr

/-- R56, R57: a 2-bit mode where SR does not take effect: 0b01 is RTZ, every other code rounds as RNE. -/
def Rnd.plain (mode : BitVec 2) : Rnd := if mode = 1 then .rtz else .rne

/-- R57, R59: whether a result format takes SR: a float of 16 bits or fewer. -/
def Elem.takesSr (f : Elem) : Bool := f.isFloat && f.width ≤ 16

/-- R58: whether a discarded part `rem` of 2^`k` (more below it where `sticky`) rounds the magnitude `q` up. -/
def Rnd.up (r : Rnd) (q rem k : Nat) (sticky : Bool) : Bool :=
  match r with
  | .rtz => false
  | .rne => if 2 * rem = 2 ^ k then sticky || q % 2 == 1 else decide (2 ^ k < 2 * rem)
  | .sr d => decide (2 ^ 16 ≤ (rem * 2 ^ 16) / 2 ^ k + d)

/-- An encoding and the flags its forming raises. -/
structure FRes where
  bits : Nat
  flags : FFlags
deriving DecidableEq, Repr

/-- The encoding of magnitude `b` with sign `s`. -/
def Elem.signed (f : Elem) (s : Bool) (b : Nat) : Nat := if s then f.signBit + b else b

/-- R65: overflow of a finite result. -/
def Elem.overflow (f : Elem) (r : Rnd) (s : Bool) : Nat :=
  f.signed s (if f.hasInf && r != .rtz then f.expOnes else f.maxFinite)

/-- R57, R58, R65, R66: round the exact value (−1)^s · m · 2^e to format `f`; `sticky` says that the exact magnitude
lies above m · 2^e by less than 2^e. A zero is not rounded and keeps its sign. -/
def Elem.roundFin (f : Elem) (r : Rnd) (s : Bool) (m : Nat) (e : Int) (sticky : Bool) : FRes :=
  if m = 0 && !sticky then ⟨f.signed s 0, 0⟩
  else
    let top := (Nat.log2 m : Int) + e
    let tiny := m = 0 || decide (top < f.emin)
    let u := max top f.emin - f.mbits
    let k := (u - e).toNat
    let mm := m <<< (e - u).toNat
    let q := mm / 2 ^ k
    let rem := mm % 2 ^ k
    let inexact := rem != 0 || sticky
    let mag := if r.up q rem k sticky then q + 1 else q
    let b := (u + f.mbits - f.emin).toNat * 2 ^ f.mbits + mag
    if f.maxFinite < b then ⟨f.overflow r s, flOF ||| flNX⟩
    else ⟨f.signed s b, flIf inexact flNX ||| flIf tiny flUF⟩

/-- Round a value to a float format (R65, R66), with R72's specials: NaN becomes the canonical one (and +0 with IV where
the format has none), an infinity the format's own or, where it has none, the largest finite value with IV. -/
def Elem.roundVal (f : Elem) (r : Rnd) (v : FVal) : FRes :=
  match v with
  | .nan q => ⟨f.nan, flIf (q || !f.hasNan) flIV⟩
  | .inf s => if f.hasInf then ⟨f.signed s f.expOnes, 0⟩ else ⟨f.signed s f.maxFinite, flIV⟩
  | .fin s m e => f.roundFin r s m e false

/-- R63, R64: IV for signalling inputs. -/
def snanIV (vs : List FVal) : FFlags := flIf (vs.any FVal.isSnan) flIV

/-- A rounded result with further flags. -/
def FRes.orFlags (x : FRes) (f : FFlags) : FRes := ⟨x.bits, x.flags ||| f⟩

/-- R63, R64: elementwise addition in format `f`. `dot` is true in an accumulation, where opposite infinities raise no
flag. -/
def Elem.fadd (f : Elem) (r : Rnd) (dot : Bool) (a b : FVal) : FRes :=
  let s := a.add b
  (f.roundVal r s.1).orFlags (snanIV [a, b] ||| flIf (s.2 && !dot) flIV)

/-- R63, R64: elementwise multiplication. -/
def Elem.fmul (f : Elem) (r : Rnd) (a b : FVal) : FRes :=
  let p := a.mul b
  (f.roundVal r p.1).orFlags (snanIV [a, b] ||| flIf p.2 flIV)

/-- R57, R63: fused a × b + c, rounded once; a product of infinity and zero sets IV whatever c is. -/
def Elem.ffma (f : Elem) (r : Rnd) (a b c : FVal) : FRes :=
  let p := a.mul b
  let t := p.1.add c
  (f.roundVal r t.1).orFlags (snanIV [a, b, c] ||| flIf (p.2 || t.2) flIV)

/-- R64, R173: division, correctly rounded. -/
def Elem.fdiv (f : Elem) (r : Rnd) (a b : FVal) : FRes :=
  let iv := snanIV [a, b]
  match a, b with
  | .nan _, _ => ⟨f.nan, iv⟩
  | _, .nan _ => ⟨f.nan, iv⟩
  | .inf _, .inf _ => ⟨f.nan, flIV⟩
  | .inf s, .fin t _ _ => f.roundVal r (.inf (xor s t))
  | .fin s _ _, .inf t => ⟨f.signed (xor s t) 0, 0⟩
  | .fin s₁ m₁ e₁, .fin s₂ m₂ e₂ =>
    if m₂ = 0 then
      if m₁ = 0 then ⟨f.nan, flIV⟩ else (f.roundVal r (.inf (xor s₁ s₂))).orFlags flDZ
    else
      let k := 130 + Nat.log2 m₂
      f.roundFin r (xor s₁ s₂) ((m₁ <<< k) / m₂) (e₁ - e₂ - k) ((m₁ <<< k) % m₂ != 0)

/-- R64, R173: square root, correctly rounded; below −0 it is invalid. -/
def Elem.fsqrt (f : Elem) (r : Rnd) (a : FVal) : FRes :=
  match a with
  | .nan q => ⟨f.nan, flIf q flIV⟩
  | .inf s => if s then ⟨f.nan, flIV⟩ else f.roundVal r (.inf false)
  | .fin s m e =>
    if m = 0 then ⟨f.signed s 0, 0⟩
    else if s then ⟨f.nan, flIV⟩
    else
      let m' := if e % 2 = 0 then m else 2 * m
      let e' := if e % 2 = 0 then e else e - 1
      let x := m' <<< 140
      let q := isqrt x
      f.roundFin r false q (e' / 2 - 70) (q * q != x)

/-- R63, R174: whether a counts as the smaller of the two, −0 below +0. -/
def FVal.below (a b : FVal) : Bool :=
  a.cmp b < 0 || (a.cmp b == 0 && a.sign && !b.sign)

/-- R173, R174: the smaller (or the larger) of two values; a NaN operand gives the canonical NaN. The bits of the chosen
operand are kept. No result is rounded, and a subnormal one sets no UF (log 75). -/
def Elem.fminmax (f : Elem) (larger : Bool) (x y : Nat) : FRes :=
  let a := f.decodeF x
  let b := f.decodeF y
  if a.isNan || b.isNan then ⟨f.nan, snanIV [a, b]⟩
  else ⟨(if a.below b != larger then x else y) % 2 ^ f.width, 0⟩

/-- R174: |x| or −x: bits moved, a NaN becomes the canonical one with IV for a signalling input only. -/
def Elem.fsign (f : Elem) (negate : Bool) (x : Nat) : FRes :=
  let v := f.decodeF x
  let mag := x % 2 ^ (f.width - 1)
  if v.isNan then ⟨f.nan, snanIV [v]⟩
  else ⟨f.signed (negate && !v.sign) mag, 0⟩

/-- The relations of compares (R173, R178, R133). -/
inductive Rel where
  | eq
  | ne
  | lt
  | le
  | un
deriving DecidableEq, Repr

/-- A relation on the sign of a difference. -/
def Rel.holds (r : Rel) (c : Int) : Bool :=
  match r with
  | .eq => c == 0
  | .ne => c != 0
  | .lt => decide (c < 0)
  | .le => decide (c ≤ 0)
  | .un => false

/-- R174, R133: a compare. With a NaN operand it is false but for ≠ and unordered; IV for a signalling NaN only. -/
def Elem.fcmp (f : Elem) (r : Rel) (x y : Nat) : Bool × FFlags :=
  let a := f.decodeF x
  let b := f.decodeF y
  if a.isNan || b.isNan then (r == .ne || r == .un, snanIV [a, b]) else (r.holds (a.cmp b), 0)

/-- The same compare on integer elements. -/
def Elem.icmp (f : Elem) (r : Rel) (x y : Nat) : Bool := r.holds (f.decodeI x - f.decodeI y).sign

/-- R71 code I: round |v| = m · 2^e to a whole number by RNE or RTZ; the second component says it was inexact. -/
def roundToNat (r : Rnd) (m : Nat) (e : Int) : Nat × Bool :=
  if 0 ≤ e then (m <<< e.toNat, false)
  else
    let k := (-e).toNat
    let q := m / 2 ^ k
    let rem := m % 2 ^ k
    (if r.up q rem k false then q + 1 else q, rem != 0)

/-- R71 code I, R72: a float value to an integer format. -/
def Elem.toInt (f : Elem) (r : Rnd) (v : FVal) : FRes :=
  match v with
  | .nan _ => ⟨0, flIV⟩
  | .inf s => ⟨f.encodeI (if s then f.intMin else f.intMax), flIV⟩
  | .fin s m e =>
    let q := roundToNat r m e
    let t := signedMag s q.1
    if t < f.intMin then ⟨f.encodeI f.intMin, flIV⟩
    else if f.intMax < t then ⟨f.encodeI f.intMax, flIV⟩
    else ⟨f.encodeI t, flIf q.2 flNX⟩

/-- R71 code N, R72: an integer narrowed or widened to an integer format; out of range saturates with OF. -/
def Elem.narrow (f : Elem) (t : Int) : FRes :=
  if t < f.intMin then ⟨f.encodeI f.intMin, flOF⟩
  else if f.intMax < t then ⟨f.encodeI f.intMax, flOF⟩
  else ⟨f.encodeI t, 0⟩

/-- R71, R72: conversion of encoding `x` from `src` to `dst`. A mode that is SR applies to a float destination of 16 bits
or fewer only; the caller gives the rounding that R57 leaves for `dst`. -/
def convertElem (src dst : Elem) (r : Rnd) (x : Nat) : FRes :=
  if src = dst then ⟨x % 2 ^ src.width, 0⟩
  else if dst.isFloat then dst.roundVal r (src.decode x)
  else if src.isFloat then dst.toInt r (src.decodeF x)
  else dst.narrow (src.decodeI x)

/-- R137: a positive value ⌊value⌋ at 12 bits or the format's precision: truncated magnitude `q` · 2^`e`, as an estimate.
Beyond the range: infinity and OF. Tiny: toward zero with UF. Never NX. -/
def Elem.estRound (f : Elem) (s : Bool) (q : Nat) (e : Int) : FRes :=
  let p := min 12 (f.mbits + 1)
  let cut := Nat.log2 q + 1 - p
  let x := f.roundFin .rtz s (q / 2 ^ cut * 2 ^ cut) e false
  if x.flags &&& flOF = 0 then ⟨x.bits, x.flags &&& ~~~flNX⟩ else ⟨f.signed s f.expOnes, flOF⟩

/-- R137: the reciprocal estimate. -/
def Elem.frcp (f : Elem) (v : FVal) : FRes :=
  match v with
  | .nan q => ⟨f.nan, flIf q flIV⟩
  | .inf s => ⟨f.signed s 0, 0⟩
  | .fin s m e =>
    if m = 0 then ⟨f.signed s f.expOnes, flDZ⟩
    else
      let k := 20 + Nat.log2 m
      f.estRound s (2 ^ k / m) (-e - k)

/-- R137: the reciprocal square-root estimate. 1/√(m·2^e) with e made even is ⌊√(2^k / m)⌋ · 2^(−(e + k)/2), exact to
the digits kept since k is even and large. -/
def Elem.frsq (f : Elem) (v : FVal) : FRes :=
  match v with
  | .nan q => ⟨f.nan, flIf q flIV⟩
  | .inf s => if s then ⟨f.nan, flIV⟩ else ⟨0, 0⟩
  | .fin s m e =>
    if m = 0 then ⟨f.signed s f.expOnes, flDZ⟩
    else if s then ⟨f.nan, flIV⟩
    else
      let m' := if e % 2 = 0 then m else 2 * m
      let e' := if e % 2 = 0 then e else e - 1
      let k := 2 * (30 + Nat.log2 m')
      f.estRound false (isqrt (2 ^ k / m')) (-(e' / 2) - k / 2)

/-- R55: emax of an element format. -/
def Elem.emax : Elem → Int
  | .e4m3 => 8
  | .e5m2 => 15
  | .e3m2 => 4
  | .e2m3 => 2
  | .e2m1 => 2
  | _ => 0

/-- R55: larger of two finite magnitudes. -/
def magMax (a b : Nat × Int) : Nat × Int :=
  let lo := min a.2 b.2
  if alignTo a.1 a.2 lo < alignTo b.1 b.2 lo then b else a

/-- R55: the scale code of a block of finite values. -/
def blockExp (f : Elem) (vs : List FVal) : Int :=
  let amax := vs.foldl (fun acc v => match v with | .fin _ m e => magMax acc (m, e) | _ => acc) (0, 0)
  if amax.1 = 0 then -127
  else min (max ((Nat.log2 amax.1 : Int) + amax.2 - f.emax) (-127)) 127

/-- R55: one element of a block: v / 2^x in format F, clamped symmetrically; a clamp sets NX and not OF. -/
def quantElem (f : Elem) (r : Rnd) (x : Int) (v : FVal) : FRes :=
  match v with
  | .fin s m e =>
    if f == .int8 then
      let q := roundToNat r m (e - x + 6)
      if 127 < q.1 then ⟨f.encodeI (signedMag s 127), flNX⟩
      else ⟨f.encodeI (signedMag s q.1), flIf q.2 flNX⟩
    else
      let y := f.roundFin r s m (e - x) false
      if y.flags &&& flOF = 0 then y else ⟨f.signed s f.maxFinite, flNX⟩
  | _ => ⟨0, 0⟩

/-- R51: the value of a scale code; 0xFF is NaN. -/
def scaleExp (c : Nat) : Option Int := if c % 256 = 255 then none else some ((c % 256 : Nat) - 127 : Int)

/-- R54: the product of two block-scaled elements before its one rounding, with its flags apart from the rounding's. A NaN
scale makes it NaN; a signalling element still sets IV, and an infinity times zero there sets nothing (log 44). -/
def scaledProduct (x y : FVal) (cx cy : Nat) : FVal × FFlags :=
  match scaleExp cx, scaleExp cy with
  | some ex, some ey =>
    let p := x.mul y
    (match p.1 with | .fin s m e => .fin s m (e + ex + ey) | v => v, snanIV [x, y] ||| flIf p.2 flIV)
  | _, _ => (.nan false, snanIV [x, y])

end Sys2Proof.Machine
end

