-- ==== Sys2Proof/Machine/Table.lean ====
section
/-! DEFINITION. Sparse tables: a list of numbered entries. An entry that is not listed holds the table's default, so that
256 like cells, 1,024 queues or 2^52 bytes stay small data. -/

namespace Sys2Proof.Machine

/-- A numbered table as plain data, sorted by number. -/
abbrev Tbl (α : Type) := List (Nat × α)

/-- Entry `k`, or the default where none is listed. -/
def Tbl.get {α : Type} (d : α) (t : Tbl α) (k : Nat) : α :=
  match t with
  | [] => d
  | (j, v) :: rest => if j = k then v else Tbl.get d rest k

/-- The table without entry `k`. -/
def Tbl.erase {α : Type} (t : Tbl α) (k : Nat) : Tbl α := t.filter fun e => e.1 != k

/-- Put an entry in order of number; the number is not listed before. -/
def Tbl.insert {α : Type} (t : Tbl α) (k : Nat) (v : α) : Tbl α :=
  match t with
  | [] => [(k, v)]
  | (j, w) :: rest => if j < k then (j, w) :: Tbl.insert rest k v else (k, v) :: (j, w) :: rest

/-- Write entry `k`. -/
def Tbl.set {α : Type} (t : Tbl α) (k : Nat) (v : α) : Tbl α := (t.erase k).insert k v

/-- Change entry `k`. -/
def Tbl.upd {α : Type} (d : α) (t : Tbl α) (k : Nat) (f : α → α) : Tbl α := t.set k (f (t.get d k))

/-- Numbers strictly rising: no number twice. -/
def Tbl.sorted {α : Type} (t : Tbl α) : Bool := decide ((t.map Prod.fst).Pairwise (· < ·))

end Sys2Proof.Machine
end

