-- ==== Sys2Proof/Machine/PilotState.lean ====
section
/-! DEFINITION. State of a cell's pilot (R157 to R250) and of its long-vector unit (R125 to R156). -/

namespace Sys2Proof.Machine

/-- R190, R40, R413: what the pilot is doing. -/
inductive PilotMode where
  | idle
  | firmware
  | kernel
deriving DecidableEq, Repr

/-- R29, R143: the stores that only the cell itself reaches, and its own slice. -/
inductive OwnStore where
  | localStore
  | window
  | slice
deriving DecidableEq, Repr

/-- How a load extends its value (R168). -/
inductive Ext where
  | zero
  | sign
deriving DecidableEq, Repr

/-- R209: where a load of the cell's own regions finds its bytes: a store, or a register of the cell's own block. -/
inductive LoadFrom where
  | own (st : OwnStore) (off len : Nat)
  | reg (off : Nat)
deriving DecidableEq, Repr

/-- R209, R213: a read of a load, still to come: it samples in cc `cc`. `addr` is the address of its first byte. -/
structure LoadRead where
  cc : Nat
  src : LoadFrom
  addr : Nat
deriving DecidableEq, Repr

/-- R207: a result on its way. `wide` names the f/w file; `due` is the cc at whose end it lands. -/
structure PilotWb where
  wide : Bool
  reg : BitVec 5
  val : BitVec 128
  due : Nat
  /-- R440: the load met an uncorrectable error: nothing is written, and MCHK becomes pending. -/
  bad : Bool
  /-- It is the result of a load (R297, R299). -/
  load : Bool
  /-- It is the scalar result of a vector instruction (R150). -/
  vec : Bool := false
  /-- A load's reads that are still to come, the bytes of those made, how its value extends, and its issue cc. -/
  reads : List LoadRead := []
  got : List Byte := []
  ext : Ext := .zero
  since : Nat := 0
deriving DecidableEq, Repr

/-- R146, R252: who stores, in the order of precedence at a bank: the drain, the vector unit, the pilot. Writes of the fourth group
(mover, remote requests, dispatcher) go home at once and never wait here (`State.writeFourth`). -/
inductive Storer where
  | pass
  | vector
  | pilot
deriving DecidableEq, Repr

/-- R209, R145, R99: bytes stored and not yet visible at cell scope; they are visible at the end of cc `vis`. `since` is the issue cc of a
pilot's store. -/
structure PendStore where
  by' : Storer
  store : OwnStore
  off : Nat
  bytes : List Byte
  vis : Nat
  since : Nat := 0
  /-- The elements of a vector store whose bytes these are (R445). -/
  elems : List Nat := []
deriving DecidableEq, Repr

/-- R209, R62: a write of a register of the cell's block that takes effect at the end of cc `vis`. `outer` says that it came from outside
the cell: FSETM's and the cell's own writes of the same cc come after it (R177). -/
structure PendReg where
  off : Nat
  val : Word64
  vis : Nat
  outer : Bool := false
deriving DecidableEq, Repr

/-- Where a load's value goes: an s register, or an f or w register (R168). -/
structure LoadDest where
  wide : Bool
  reg : BitVec 5
  ext : Ext
deriving DecidableEq, Repr

/-- R210, R211: an outstanding remote request of the pilot. A load keeps the bytes its home has given; `upper` and `low`
join the halves of a split access: a load's register is written when both halves have returned (R213). -/
structure Remote where
  req : Nat
  load : Bool
  addr : Nat
  len : Nat
  /-- A store's bytes. -/
  bytes : List Byte
  dest : Option LoadDest
  /-- Bytes of the whole load, and this half's place in it. -/
  total : Nat
  at' : Nat
  /-- The request of the other half, if any. -/
  mate : Option Nat
  /-- LDA bypasses the tile cache (R298). -/
  acquire : Bool
  /-- The home has performed it (R290). -/
  performed : Bool
  /-- A load's bytes; none when refused (R272). -/
  got : Option (List Byte)
  err : Bool
  /-- hc of its issue (R443), and cc. -/
  since : Nat
  cc : Nat := 0
  /-- First cc in which its answer can reach the pilot, once its home has performed it (R210). -/
  back : Nat := 0
  /-- Its pilot ran at supervisor level when it issued it (R208, R220). -/
  sup : Bool := true
  /-- Its traffic class (R19). -/
  cls : Class := .tide
  /-- R23: its flit was dropped on the way; its home never performs it. -/
  lost : Bool := false
deriving DecidableEq, Repr

/-- R215: a read of an iteration: none, a remote request whose response it waits for, or its bytes. -/
inductive RepRead where
  | none
  | wait (req : Nat)
  | done (bytes : List Byte)
deriving DecidableEq, Repr

/-- R183, R184: the block-repeat that is running. -/
structure RepState where
  op : BitVec 3
  rd : BitVec 5
  ra : BitVec 5
  rb : BitVec 5
  size : Nat
  insn : Word32
  /-- Earliest cc of the next iteration (R215). -/
  next : Nat
  /-- The iteration that waits for reads of other regions has these of its reads, at s4 and at s5; none where no iteration waits. -/
  waits : Option (RepRead × RepRead) := none
deriving DecidableEq, Repr

/-- R197, R199: a custom instruction that waits for the bytes of its load: the sources as they stood at its beginning, what its micro-ops
so far have formed, those still to run, and the registers it will write. -/
structure MicroRun where
  f : CFmt
  /-- Number of its remote request; none for a load of the cell's own regions. -/
  req : Option Nat
  regs : List (BitVec 5 × Word64)
  t : Tbl Word64
  writes : List (BitVec 5 × Word64)
  dst : Nat
  rest : List Word64
  dests : List (BitVec 5)
  /-- cc at whose end its results land; of one with a remote load, cc from the end of the cc that brings its bytes. -/
  due : Nat
  reads : List LoadRead
  got : List Byte
  bad : Bool
  since : Nat
deriving DecidableEq, Repr

/-- R261, R299: an ACQR invalidation under way: lines `lo` to below `hi` (by line number), or every line. -/
structure AcqrState where
  whole : Bool
  lo : Nat
  hi : Nat
  due : Nat
  /-- How many places of its order it has passed. -/
  pos : Nat := 0
deriving DecidableEq, Repr

/-- What raises an entry (R229). -/
structure Trap where
  code : Nat
  wr : Bool
  half : Bool
  info : Nat
  insn : Word32
  addr : Word64
  rpc : Word64
deriving DecidableEq, Repr

/-- R232, R237, R239, R241: what an entry, a gate or a return that is under way does next, at the end of a cc. -/
inductive SeqStep where
  /-- Entry cc 1 and 2: `stay` keeps user level (a delegated exception, or a gate with SUP = 0 called from user level); a gate brings its
  entry point and the link value. -/
  | enter (t : Trap) (stay : Bool) (gate : Option (Word64 × Word64))
  /-- R241: the double fault of entry cc 2, with the stack pointer whose push failed. -/
  | double (t : Trap) (x : Word64)
  /-- The vector line, or the entry point's, is read from the window. -/
  | line
  /-- R237: the descriptor of a gate has been read. -/
  | gate (n : Nat)
  /-- R239: the frame has been read, and is compared in cc 7. -/
  | pop (f : Nat)
deriving DecidableEq, Repr

/-- An entry, a gate or a return under way: its next step, the cc at whose end that happens, its instruction word, the first cc in which
the window stores before it are visible (R219), and its reads, those still to come and what the others have brought. -/
structure PilSeq where
  step : SeqStep
  at' : Nat
  insn : Word32
  since : Nat
  settled : Nat
  reads : List LoadRead := []
  got : List Byte := []
  bad : Bool := false
deriving DecidableEq, Repr

/-- Pilot: registers and issue state. -/
structure Pilot where
  /-- s0 to s31 (R157); s0 is never read here. -/
  s : Tbl Word64
  /-- w0 to w31 (R159). -/
  w : Tbl (BitVec 128)
  pc : Word64
  mode : PilotMode
  /-- Earliest cc of the next issue (R203, R215, R232). -/
  next : Nat
  wbs : List PilotWb
  /-- cc from which the integer and the float divider are free (R207). -/
  intDiv : Nat
  fpDiv : Nat
  /-- First free cc of the local-store, window and scratch port (R209). -/
  lsPort : Nat
  winPort : Nat
  sliPort : Nat
  remotes : List Remote
  /-- Number of the next remote request. -/
  nextReq : Nat
  rep : Option RepState
  /-- R199: custom instructions whose load is under way, oldest first. -/
  micros : List MicroRun
  acqr : Option AcqrState
  /-- A request whose return later memory accesses wait for (LDA, R298), or a running ACQR (R299). -/
  hold : Bool
  /-- First cc in which a memory access may issue after an acquire or a fence (R298 to R300). -/
  memFree : Nat
  /-- R459: what the cc up to `next` are spent on, FETCH or ENTRY. -/
  nextWhy : Byte
  /-- The entry, gate or return under way (R232, R237, R239). -/
  seq : Option PilSeq := none
deriving DecidableEq, Repr

/-- Exception and status registers (R221, R227, R242, R246). -/
structure Exc where
  pl : Bool
  ceil : Bool
  im : Bool
  pim : Bool
  /-- Last cc of the open guard window; closed when it is past (R246). -/
  guardEnd : Option Nat
  /-- First cc of that window (R246). -/
  guardFrom : Nat
  ienMbox : Bool
  mchk : Bool
  hubreq : Bool
  pabort : Bool
  mbox : Bool
  ssp : Word64
  vb : Byte
  ub : Byte
  deleg : BitVec 7
  gb : BitVec 14
  gcount : BitVec 11
  cause : Word64
  addr : Word64
  dfOrig : Byte
  indf : Bool
  dfsp : Word64
deriving DecidableEq, Repr

/-- Floating-point control and flags, and the generators (R61, R68). -/
structure FpState where
  prm : BitVec 2
  vrm : BitVec 2
  pil : BitVec 5
  vec : BitVec 5
  drn : BitVec 5
  srv : Word32
  srd : Word32
  /-- Flags that the pilot raises in a cc and that stand in PIL at its end (R68, R177). -/
  raised : List (Nat × BitVec 5) := []
deriving DecidableEq, Repr

/-- Decode table and microcode (R193, R194). -/
structure Ucode where
  udt : Tbl Word64
  store : Tbl Word64
  index : BitVec 9
deriving DecidableEq, Repr

/-- R147: a vector result in flight. `mask` marks the bits written; `due` is the cc at whose end they land. `m` writes a
predicate register. `feed` is a slice pushed (R140). -/
inductive VecDest where
  | v (r : BitVec 5)
  | m (r : BitVec 4)
deriving DecidableEq, Repr

/-- R147: one destination of an instruction in flight. -/
structure VecWrite where
  dest : VecDest
  mask : BitVec 8192
  val : BitVec 8192
deriving DecidableEq, Repr

/-- R145: the active elements that a load reads in cc `cc`, each with its element number and offset in the store. -/
structure VecRead where
  cc : Nat
  store : OwnStore
  elems : List (Nat × Nat)
deriving DecidableEq, Repr

/-- R147: an instruction in flight. -/
structure VecFlight where
  writes : List VecWrite
  flags : BitVec 5
  due : Nat
  /-- Element width of its first destination, R152. -/
  ew : Nat
  /-- PC of the instruction. -/
  pc : Word64
  /-- R145: a load's reads that are still to come. -/
  reads : List VecRead := []
deriving DecidableEq, Repr

/-- R140: a slice of the feed queue, with the first cc of a broadcast that may take it. -/
structure Slice where
  bits : BitVec 8192
  from' : Nat
deriving DecidableEq, Repr

/-- R120, R154, R155: an orbit packet. -/
structure OrbitPkt where
  rows : BitVec 4
  rg : BitVec 6
  lastRg : Bool
  pidx : BitVec 16
  tag : BitVec 16
  kind : Byte
  n : BitVec 7
  hop : Byte
  dstg : CellId
  srcg : CellId
  srcMod : BitVec 16
  words : List Word64
  /-- R19, R120: class of the command that sent it. -/
  cls : Class := .comet
deriving DecidableEq, Repr

/-- R154: the VORB that waits. -/
structure Vorb where
  role : BitVec 2
  ret : Bool
  tag : BitVec 16
  n : Nat
  /-- FIRST and MIDDLE wait for the return lap. -/
  onReturn : Bool
  vd : BitVec 5
  va : BitVec 8192
  int : Bool
  /-- Rounding mode at its issue (R62). -/
  vrm : BitVec 2
  since : Nat
  insn : Word32
deriving DecidableEq, Repr

/-- The long-vector unit. -/
structure Vec where
  v : Tbl (BitVec 8192)
  m : Tbl (BitVec 1024)
  vl : Nat
  vt : BitVec 4
  feed : List Slice
  feedSkip : Nat
  /-- A VFEED stalls since this cc (R141), and its word. -/
  feedStall : Option (Nat × Word32)
  waitLimit : Word32
  inbox : List OrbitPkt
  ovf : Bool
  timeout : Bool
  mismatch : Bool
  vorb : Option Vorb
  flight : List VecFlight
  /-- Last cc in which the memory port is occupied (R145), plus one. -/
  port : Nat
deriving DecidableEq, Repr

/-- A pilot after power-on: R157's registers hold a chosen 0 (log 4). -/
def Pilot.reset : Pilot :=
  { s := [], w := [], pc := 0x100040, mode := .idle, next := 0, wbs := [], intDiv := 0, fpDiv := 0, lsPort := 0,
    winPort := 0, sliPort := 0, remotes := [], nextReq := 0, rep := none, micros := [], acqr := none, hold := false,
    memFree := 0, nextWhy := 0 }

/-- R221, R227, R242: reset values. -/
def Exc.reset : Exc :=
  { pl := true, ceil := true, im := true, pim := false, guardEnd := none, guardFrom := 0, ienMbox := false, mchk := false,
    hubreq := false, pabort := false, mbox := false, ssp := 0x3F000, vb := 0, ub := 0, deleg := 0, gb := 0, gcount := 0,
    cause := 0, addr := 0, dfOrig := 0, indf := false, dfsp := 0 }

/-- R61, R68: reset values. -/
def FpState.reset : FpState := { prm := 0, vrm := 0, pil := 0, vec := 0, drn := 0, srv := 1, srd := 1 }

/-- R193: reset values. -/
def Ucode.reset : Ucode := { udt := [], store := [], index := 0 }

/-- R130: reset values; v and m registers hold a chosen 0 (log 4). -/
def Vec.reset : Vec :=
  { v := [], m := [], vl := 0, vt := 0, feed := [], feedSkip := 0, feedStall := none, waitLimit := 0x10000,
    inbox := [], ovf := false, timeout := false, mismatch := false, vorb := none, flight := [], port := 0 }

end Sys2Proof.Machine
end

