-- ==== Sys2Proof/Machine/CellState.lean ====
section
/-! DEFINITION. State of the rest of a cell: the pass engine (R73 to R124), the mover (R277 to R287), mailbox and rings
(R24, R39), counters (R458 to R462), residence (R34, R455), router (R16 to R23). -/

namespace Sys2Proof.Machine

/-- R110: where a pass stands. -/
inductive PassStage where
  | queued
  | stepping
  | stepped
  | committing
deriving DecidableEq, Repr

/-- R85, R118: one row group's sums: the initial totals (FP64 or INT32 encodings, `none` until an orbit packet brings
them), the chunk sums of its ended chunks, oldest first, and the running FP32 chunk sum of each of its outputs. -/
structure RgAcc where
  init : Option (List Nat)
  chunks : List (List Nat)
  cur : List Nat
  /-- HOP of the packet that brought the initial totals (R120). -/
  hop : Nat
  /-- cc at whose end each ended chunk's sum stands in the chunk-sum buffer (R98, R118). -/
  ends : List Nat := []
  /-- R107: a fold of its stored sums meets a residue mismatch. -/
  foldBad : Bool := false
deriving DecidableEq, Repr

/-- R80 to R82: operands of one step: raw elements and scale codes of the rows of the row group and of the columns, each over the K positions
of the step that lie below K. -/
structure StepOps where
  a : List (List Nat)
  asc : List (List Nat)
  b : List (List Nat)
  bsc : List (List Nat)
  cnt : Nat
deriving DecidableEq, Repr

/-- R99: what the next step's reads have brought: its broadcast cc, its operands, and, with a row group's first step, the C elements as initial
totals. -/
structure StepRead where
  at' : Nat
  ops : StepOps
  ini : List FRes
deriving DecidableEq, Repr

/-- R81: the part of an FP32 step's weight panel that is read in the first of two cc, for a broadcast in cc `at'`: elements and scale codes
of its columns, and whether a read met an uncorrectable error. -/
structure HalfPanel where
  at' : Nat
  b : List (List Nat)
  bsc : List (List Nat)
  bad : Bool
deriving DecidableEq, Repr

/-- An outstanding pass (R93): the descriptor as captured (R92) and what its steps have formed. -/
structure Pass where
  /-- The eight doublewords of the descriptor (R90). -/
  dw : List Word64
  issue : Nat
  stage : PassStage
  /-- cc of the first broadcast, once it has begun (R99). -/
  start : Nat
  /-- Steps done. -/
  step : Nat
  /-- The cc in which the next step would broadcast without a bubble; once the steps have ended, the cc after the last (R96, R99). -/
  due : Nat
  groups : List RgAcc
  flags : BitVec 5
  /-- Bubble and wait cc that have ended (R97). -/
  stall : Nat
  pc : Word64
  /-- Operands read for the next step, and of an FP32 panel the first part. -/
  ready : Option StepRead
  half : Option HalfPanel
  /-- R105, R107: failures that strike the next step. -/
  upset : Option StepUpset
  /-- R106, R107: a failed check aborts the pass in this cc, with this cause. -/
  fail : Option (Nat × Byte)
  /-- cc of the last staging write (R99). -/
  staged : Nat
  /-- Last cc of the commit that has begun, the row groups it has written, and the flags it leaves (R69, R99, R108). -/
  cend : Nat
  crow : Nat
  endFlags : BitVec 5
deriving DecidableEq, Repr

/-- R116: CELL_ORBIT. -/
structure OrbitReg where
  next : CellId
  nextV : Bool
  nextX : Bool
  oport : LinkId
  prev : CellId
  prevV : Bool
  prevX : Bool
  iport : LinkId
deriving DecidableEq, Repr

/-- R96, R118: cc, from the first up to before the second, in which the drain folds stored chunk sums of the pass issued in cc `issue`. -/
structure Fold where
  from' : Nat
  to' : Nat
  issue : Nat
deriving DecidableEq, Repr

/-- The pass engine. -/
structure Arr where
  hold : Bool
  restart : BitVec 16
  done : Word32
  stallLimit : Word32
  stallShown : Nat
  abortCause : Byte
  abortPidx : BitVec 16
  abortFloor : BitVec 16
  abortValid : Bool
  orbit : OrbitReg
  passes : List Pass
  inbox : List OrbitPkt
  /-- Headers of packets discarded from a full inbox (R122). -/
  lost : List OrbitPkt
  /-- PIDX of the last pass issued in this kernel (R92). -/
  lastIssued : BitVec 16
  /-- PIDX of the last pass committed, 0 if none (R111). -/
  lastCommitted : BitVec 16
  /-- First cc in which the feeder is free, and the cc after the last commit (R99). -/
  feederFree : Nat
  commitFree : Nat
  /-- cc at whose end the slice that is being broadcast leaves the feed queue (R141). -/
  pop : Option Nat
  /-- R96, R118: the folds of stored chunk sums under way or to come. -/
  folds : List Fold
deriving DecidableEq, Repr

/-- R277, R278: a mover command held. `dw` are its four doublewords as read. -/
structure MovCmd where
  ticket : Nat
  addr : Nat
  dw : List Word64
  user : Bool
  /-- Uncorrectable error in the command's own bytes (R277). -/
  bad : Bool
  /-- First cc in which it may start; once it has started and moved its bytes, first cc in which it may complete (R287). -/
  from' : Nat
  started : Bool
  /-- hc of its start (R443). -/
  since : Nat := 0
deriving DecidableEq, Repr

/-- The mover. -/
structure Mover where
  cmds : List MovCmd
  issued : Nat
  code : BitVec 4
  valid : Bool
  more : Bool
  ticket : Word32
  errAddr : BitVec 52
  /-- Its address generators disagreed (R445); a kernel launch restarts it. -/
  stopped : Bool
deriving DecidableEq, Repr

/-- R24: the mailbox. -/
structure Mbox where
  words : List Word64
  ovf : Bool
  drops : BitVec 16
deriving DecidableEq, Repr

/-- R458, R459: cc, from the first up to before the second, in which an engine is busy (`why` 0) or holds for a reason. -/
structure Span where
  from' : Nat
  to' : Nat
  why : Byte
deriving DecidableEq, Repr

/-- R459, R461: counters of one engine, and the copies of the last sample. `busyTo` is the first cc that is not busy, `why` a reason that
holds from then on until it is changed, and `spans` what is known of the cc to come. -/
structure Eng where
  busy : Nat
  stall : Nat
  idle : Nat
  sBusy : Nat
  sStall : Nat
  sIdle : Nat
  busyTo : Nat
  why : Byte
  spans : List Span := []
deriving DecidableEq, Repr

/-- R461: one selected stall counter. -/
structure Sel where
  eng : BitVec 4
  reason : Byte
  count : Nat
  sCount : Nat
  /-- Its selection was written in this cc: it counts from the following one. -/
  fresh : Bool := false
deriving DecidableEq, Repr

/-- Counter block of a cell (R461). -/
structure Trc where
  eng : Tbl Eng
  sel : Tbl Sel
  sar : Bool
  svalid : Bool
  samples : BitVec 16
  tag : Word64
  stag : Word64
  snow : Word64
  /-- R474: stamp of the launch cc. -/
  stamp : BitVec 40
  /-- R460: the launch cc, while the counters still show the command before it. -/
  launch : Option (Nat × Word64)
deriving DecidableEq, Repr

/-- R40, R43, R334: what a ring carries to a member: the command and the launch state its entry gives. -/
structure Ring where
  cmd : Nat
  kernel : BitVec 16
  queue : QueueId
  cls : Class
  port : PortId
  gen : Byte
  seq : Word32
  entry : Word64
  sp : Word64
  args : List Word64
  restart : BitVec 16
  seed : Word32
deriving DecidableEq, Repr

/-- R338: the command a cell runs. -/
structure Running where
  cmd : Nat
  kernel : BitVec 16
  queue : QueueId
  cls : Class
  port : PortId
  gen : Byte
  seq : Word32
deriving DecidableEq, Repr

/-- R451: an error record before the hub numbers it. Fields as R451 lays them out. -/
structure ErrRec where
  mech : Byte
  action : Byte
  cls : Byte
  cell : Option CellId
  engine : Byte
  code : BitVec 16
  unit : BitVec 16
  addr : Word64
  cmd : Option Nat
deriving DecidableEq, Repr

/-- Messages of a cell to the hub's event port, which reach it in the order of their sending (R19, R22, R454). -/
inductive CellMsg where
  /-- Kernel end with the pilot's exit word, if MOV_ERR is valid its code (R342, R284), and the restart floor (R111). -/
  | ended (cmd : Nat) (exit : Word64) (moverErr : Option (BitVec 4)) (floor : BitVec 16)
  /-- Abort report with cause and floor (R110, R111). -/
  | aborted (cmd : Option Nat) (cause : Byte) (floor : BitVec 16)
  /-- An error record (R454). -/
  | record (r : ErrRec)
  /-- A Logbook record of the cell's own: stamp, TYPE, A, B and C (R468, R469). -/
  | note (stamp : Word64) (type a : Nat) (b c : Word64)
deriving DecidableEq, Repr

/-- R16, R20, R21: a router. Its inputs and outputs are numbered as R474 does, its virtual channels by class and by whether they serve flits
that enter or leave the hub (R19); a key is 8 times the input or output, plus the channel. -/
structure Router where
  /-- Flits in input buffers, oldest first. -/
  bufs : Tbl (List Flit)
  /-- Flits sent at an output that the receiver does not have yet, oldest first. -/
  wire : Tbl (List Flit)
  /-- R21: credits of an output in use. -/
  used : Tbl Nat
  /-- R21: credits that an input from another router has still to return. -/
  freed : Tbl Nat
  /-- Round-robin pointer of each output (R20). -/
  rr : Tbl Nat
  /-- hc that tide has waited with a flit and a credit, per output (R20). -/
  tideWait : Tbl Nat
  /-- R442: requests of flits lost here whose source is still to be told. -/
  owed : List (Endpoint × Nat)
deriving DecidableEq, Repr

/-- Residence of a cell: CELL_ID and reset (R34, R448, R455). -/
structure CellId' where
  group : BitVec 7
  leader : Bool
  present : Bool
  /-- In reset, with the reason code of R455. -/
  inReset : Option Byte
  /-- The arbiter has admitted that reset (R455). -/
  admitted : Bool
  /-- Self-test running since this hc, and hc of the last test (R448). -/
  selfTest : Option Nat
  lastTest : Nat
  /-- Since when (hc) each enabled interrupt, by its code, has been pending without entry, and INDF, by 0x3F, set (R248). -/
  dog : Tbl Nat
  /-- R456: its reload after a reset has failed; it stays in reset until the next start. -/
  dead : Bool
  /-- Freeze offset of the last STOP_NOW (R480). -/
  frz : BitVec 16
deriving DecidableEq, Repr

/-- One cell. -/
structure Cell where
  id : CellId'
  pil : Pilot
  exc : Exc
  fp : FpState
  uc : Ucode
  vec : Vec
  arr : Arr
  mov : Mover
  mbox : Mbox
  rings : List Ring
  run : Option Running
  trc : Trc
  ls : Mem
  win : Mem
  slice : Mem
  stores : List PendStore
  regs : List PendReg
  out : List CellMsg
  router : Router
deriving DecidableEq, Repr

/-- R116: reset value. -/
def OrbitReg.reset : OrbitReg :=
  { next := 0, nextV := false, nextX := false, oport := 0, prev := 0, prevV := false, prevX := false, iport := 0 }

/-- R102: reset values. -/
def Arr.reset : Arr :=
  { hold := false, restart := 0, done := 0, stallLimit := 0x8000, stallShown := 0, abortCause := 0, abortPidx := 0,
    abortFloor := 0, abortValid := false, orbit := .reset, passes := [], inbox := [], lost := [], lastIssued := 0,
    lastCommitted := 0, feederFree := 0, commitFree := 0, pop := none, folds := [] }

/-- R286: reset values. -/
def Mover.reset : Mover :=
  { cmds := [], issued := 0, code := 0, valid := false, more := false, ticket := 0, errAddr := 0, stopped := false }

/-- R24: reset values. -/
def Mbox.reset : Mbox := { words := [], ovf := false, drops := 0 }

/-- R461: reset values. -/
def Eng.reset : Eng := { busy := 0, stall := 0, idle := 0, sBusy := 0, sStall := 0, sIdle := 0, busyTo := 0, why := 0 }

/-- R461: reset values. -/
def Sel.reset : Sel := { eng := 0, reason := 1, count := 0, sCount := 0 }

/-- R461: reset values. -/
def Trc.reset : Trc :=
  { eng := [], sel := [], sar := false, svalid := false, samples := 0, tag := 0, stag := 0, snow := 0, stamp := 0, launch := none }

/-- R21: empty buffers, every credit at home. -/
def Router.reset : Router := { bufs := [], wire := [], used := [], freed := [], rr := [], tideWait := [], owed := [] }

/-- R34: reset values. -/
def CellId'.reset : CellId' :=
  { group := 0x7F, leader := false, present := false, inReset := none, admitted := false, selfTest := none, lastTest := 0, dog := [],
    dead := false, frz := 0 }

/-- A cell after power-on. -/
def Cell.reset : Cell :=
  { id := .reset, pil := .reset, exc := .reset, fp := .reset, uc := .reset, vec := .reset, arr := .reset, mov := .reset,
    mbox := .reset, rings := [], run := none, trc := .reset, ls := .empty, win := .empty, slice := .empty, stores := [],
    regs := [], out := [], router := .reset }

end Sys2Proof.Machine
end

