-- ==== Sys2Proof/Machine/OptState.lean ====
section
/-! DEFINITION. State of the optical ports (R375 to R390), the Ephemeris table (R369 to R373) and the page engine (R391 to
R405). -/

namespace Sys2Proof.Machine

/-- R386: a packet: its header flit and its data flits; of one received, its class and the track time of its arrival (R389). -/
structure OptPkt where
  head : FlitBits
  data : List FlitBits
  cls : Class := .control
  at' : Word64 := 0
deriving DecidableEq, Repr

/-- R383, R384: a frame sent, as it stands in the replay buffer: its sequence number and the flits of its slots, each with its class. -/
structure SentFrame where
  fseq : BitVec 12
  slots : List (Class × FlitBits)
deriving DecidableEq, Repr

/-- R382, R383: a frame as it left: its control word, and the flits of its slots from slot 0 on, each with its class. -/
structure OutFrame where
  ctl : BitVec 80
  slots : List (Class × FlitBits)
deriving DecidableEq, Repr

/-- R385: one class of a port: flits that wait for slots, flits sent, CRN last received, flits freed here, and the flits received of a
packet that is not whole yet. -/
structure OptClass where
  tx : List FlitBits
  sent : Nat
  crn : Nat
  freed : Nat
  part : List FlitBits := []
  /-- R444: which of those flits have an error that the flit code cannot correct, and whether their sideband tells whose they are. -/
  hurt : List (Nat × Bool) := []
deriving DecidableEq, Repr

/-- R370, R371: a measurement under way: exchanges wanted, probes sent (number and T1), and the results so far. -/
structure Meas where
  total : Nat
  sent : List (Nat × Word64)
  got : List (Nat × Int × Nat)
deriving DecidableEq, Repr

/-- R372: an Ephemeris entry; `at'` is the hc of its last measurement. -/
structure Eph where
  offset : Word64
  rtt : Word32
  bound : Word32
  peer : BitVec 16
  valid : Bool
  peerset : Bool
  samples : Byte
  at' : Nat
deriving DecidableEq, Repr

/-- R415: what the Atlas says of a port: used, its peer, and its path asymmetry. -/
structure PortCfg where
  used : Bool
  peerRole : BitVec 2
  peerPort : BitVec 3
  peerMod : BitVec 16
  asym : Nat
deriving DecidableEq, Repr

/-- One optical port. -/
structure OptPort where
  up : Bool
  /-- R377: step 4 of training has ended: frames pass. -/
  linked : Bool
  /-- R377: hc by which its training must have completed. -/
  trainBy : Nat
  used : Bool
  width : BitVec 2
  why : BitVec 4
  peerv : Byte
  peerport : BitVec 3
  peermod : BitVec 16
  spares : BitVec 3
  replays : BitVec 16
  csym : BitVec 16
  ucw : BitVec 16
  retrains : Byte
  badpkt : Byte
  cfg : PortCfg
  /-- R379: working logical lanes. -/
  lanes : BitVec 16
  /-- R380: uncorrectable codewords of the running 1 ms interval, and when it began (hc). -/
  ucwRun : Nat
  ucwFrom : Nat
  /-- R380: since when (hc) a retrain runs. -/
  retrain : Option Nat
  /-- R380: last load-curve corrections of laser bias and equaliser offset. -/
  bias : Int
  eq : Int
  /-- R384: next FSEQ expected, next FSEQ to send, NAK owed, and unacknowledged frames, oldest first. -/
  expect : BitVec 12
  nextSeq : BitVec 12
  nak : Bool
  replay : List SentFrame
  /-- R385: class to name in CRV next, contests that tide has lost in a row, and the classes. -/
  crv : BitVec 2
  tideLost : Nat
  cls : Tbl OptClass
  /-- Whole packets received and not yet taken, oldest first. -/
  rx : List OptPkt
  /-- R388: version formed, the peer's HELLO_ACK. -/
  formed : Option Byte
  ack : Option Byte
  meas : Option Meas
  /-- hc since which frames are unacknowledged and FACK has not advanced (R380). -/
  fackAt : Nat
deriving DecidableEq, Repr

/-- R399, R402: a page operation that a cell posted and that has no STATUS yet. -/
structure PageOp where
  reqid : BitVec 16
  cell : CellId
  desc : Nat
  put : Bool
  cls : BitVec 2
  dstmod : BitVec 16
  page : Word32
  local' : Nat
  /-- hc of the post. -/
  posted : Nat
deriving DecidableEq, Repr

/-- R401 to R403: an operation that the page engine has admitted for a page of this module's pool: the port it came by, its header, for a
PUT that of part 15, and the parts that a PUT has brought. -/
structure PageServe where
  put : Bool
  port : LinkId
  srcmod : BitVec 16
  reqid : BitVec 16
  page : Word32
  head : FlitBits
  parts : Tbl (List FlitBits)
deriving DecidableEq, Repr

/-- A post of LNK_PGPOST that is not read yet (R399): who, where, when (hc). -/
structure PgPost where
  cell : CellId
  addr : Nat
  at' : Nat
deriving DecidableEq, Repr

/-- R393: an entry of the forwarding table. -/
structure Fwd where
  port : LinkId
  valid : Bool
deriving DecidableEq, Repr

/-- Optics and pages of the module. -/
structure Optics where
  ports : Tbl OptPort
  eph : Tbl Eph
  role : BitVec 2
  modnum : BitVec 16
  chainid : Word32
  first : BitVec 24
  count : BitVec 24
  fwd : Tbl Fwd
  posts : List PgPost
  ops : List PageOp
  /-- R402, R403: operations admitted and not performed, oldest first. -/
  admitted : List PageServe
  /-- PUTs whose remaining parts are discarded (R401): sending module and REQID. -/
  dropped : List (BitVec 16 × BitVec 16)
  nextReq : BitVec 16
  /-- R375, R378: working spares of each optical engine, 4 before training finds fewer. -/
  spares : Tbl Nat
  /-- Frames that left, with their port, oldest first. -/
  sent : List (Nat × OutFrame)
  /-- R479: ports that went down in a frozen module; the page engine hears of it at the release. -/
  downDue : List LinkId
deriving DecidableEq, Repr

/-- R385: reset value. -/
def OptClass.reset : OptClass := { tx := [], sent := 0, crn := 0, freed := 0 }

/-- R372: reset value. -/
def Eph.reset : Eph :=
  { offset := 0, rtt := 0, bound := 0, peer := 0, valid := false, peerset := false, samples := 0, at' := 0 }

/-- R370, R415: a port that the Atlas does not mark used. -/
def PortCfg.reset : PortCfg := { used := false, peerRole := 0, peerPort := 0, peerMod := 0, asym := 8 }

/-- R390: reset value; every lane works until training says otherwise (log 4). -/
def OptPort.reset : OptPort :=
  { up := false, linked := false, trainBy := 0, used := false, width := 0, why := 0, peerv := 0, peerport := 0, peermod := 0, spares := 0, replays := 0,
    csym := 0, ucw := 0, retrains := 0, badpkt := 0, cfg := .reset, lanes := BitVec.allOnes 16, ucwRun := 0, ucwFrom := 0,
    retrain := none, bias := 0, eq := 0, expect := 0, nextSeq := 0, nak := false, replay := [], crv := 0, tideLost := 0,
    cls := [], rx := [], formed := none, ack := none, meas := none, fackAt := 0 }

/-- R391, R393, R398: reset values. -/
def Optics.reset : Optics :=
  { ports := [], eph := [], role := 0, modnum := 0, chainid := 0, first := 0, count := 0, fwd := [], posts := [], ops := [],
    admitted := [], dropped := [], nextReq := 0, spares := [], sent := [], downDue := [] }

end Sys2Proof.Machine
end

