-- ==== Sys2Proof/Machine/HubState.lean ====
section
/-! DEFINITION. State of the Meridian hub, the tile caches and HBM. -/

namespace Sys2Proof.Machine

/-- R16, R18, R21, R477: the hub crossbar: flits it holds, oldest first, by the router of the hub link they came by and their channel (8 times the
router, plus the channel), and the requests of flits lost there whose source is still to be told (R442). -/
structure Xbar where
  bufs : Tbl (List Flit)
  owed : List (Endpoint × Nat)
deriving DecidableEq, Repr

/-- Nothing in the crossbar. -/
def Xbar.reset : Xbar := { bufs := [], owed := [] }

/-- R4, R5, R493: the clocks. `cc` counts unfrozen arithmetic periods, `hc` hub periods; the phase says how far the hub
clock is ahead, in units of 1/128 hc, of which one cc is worth D. -/
structure Clock where
  cc : Nat
  hc : Nat
  phase : Nat
  d : Byte
  /-- Frozen by an Eclipse tick or STOP_NOW (R476, R480): cells do not advance. -/
  frozen : Bool
  /-- R489: the converters are on. -/
  powered : Bool
  /-- R446: the hub has stopped itself. -/
  stopped : Bool
  /-- hc at which the freeze began (R476). -/
  frozenAt : Nat
deriving DecidableEq, Repr

/-- R357, R363: a change of track time that is decided and takes effect in hub cycle `due`. -/
structure TimeChange where
  due : Nat
  /-- Units added to track time; `first` is the first set, `stepped` a step after it. -/
  add : Int
  first : Bool
  stepped : Bool
  /-- A new INC, or an amount by which it moves (R356). -/
  inc : Option Word32
  move : Int
deriving DecidableEq, Repr

/-- R353 to R366: the time base. -/
structure TimeBase where
  track : Word64
  /-- Fraction below one tick, in 2⁻³² (R354). -/
  frac : Nat
  inc : Word32
  /-- R356, R363: inc0. -/
  inc0 : Word32
  mode : BitVec 2
  port : PortId
  steplim : Word32
  period : BitVec 10
  set : Bool
  locked : Bool
  holdover : Bool
  ppsloss : Bool
  ptmerr : Bool
  stepped : Bool
  steps : BitVec 16
  /-- LASTERR, as a signed number. -/
  lasterr : Int
  ppscap : Word64
  /-- XTIME and PTMNS of the last message (R360). -/
  xtime : Word64
  ptmns : Word64
  /-- R361: target of the next edge. -/
  target : Word64
  /-- Consecutive samples within 16 units (R363), and PTM failures in a row (R362). -/
  goodRun : Nat
  badRun : Nat
  /-- R363: ff. -/
  ff : Int
  changes : List TimeChange
  /-- hc of the message that brought PPS mode, or of the last edge (R361). -/
  edgeAt : Nat
  /-- One more than the order of the last message applied (R359), and the hc of the last PTM dialogue (R362). -/
  msgOrder : Nat
  ptmAt : Option Nat
  /-- Bits [63:40] and [63:30] of track time that WRAP and PPS_OUT last saw (R374, R365), and the PPS_OUT pin. -/
  wrapSeen : Nat
  secSeen : Nat
  ppsOut : Bool
deriving DecidableEq, Repr

/-- R358, R356: reset values. -/
def TimeBase.reset : TimeBase :=
  { track := 0, frac := 0, inc := 0x98B5BF2C, inc0 := 0x98B5BF2C, mode := 0, port := 0, steplim := 0x100000, period := 10,
    set := false, locked := false, holdover := false, ppsloss := false, ptmerr := false, stepped := false, steps := 0,
    lasterr := 0, ppscap := 0, xtime := 0, ptmns := 0, target := 0, goodRun := 0, badRun := 0, ff := 0, changes := [],
    edgeAt := 0, msgOrder := 0, ptmAt := none, wrapSeen := 0, secSeen := 0, ppsOut := false }

/-- R255, R256: a line of a tile cache: its number, counted in 256 bytes from the start of HBM, and its copy. -/
structure Line where
  num : Nat
  data : List Byte
  keep : Bool
  /-- R259: its 8-byte units that hold wrong bits, and how many. -/
  wrong : List (Nat × Nat) := []
deriving DecidableEq, Repr

/-- R309: a fill in flight: what HBM gave, and whether it will still be installed. -/
structure Fill where
  num : Nat
  data : List Byte
  keep : Bool
  live : Bool
deriving DecidableEq, Repr

/-- R255: a tile cache, most recently used line first. -/
structure TileCache where
  lines : List Line
  fills : List Fill
  /-- R253, R259: errors corrected on reads, and lines invalidated for an uncorrectable one. -/
  ce : Nat := 0
  ue : Nat := 0
deriving DecidableEq, Repr

/-- R275, R271, R270: one pseudo-channel. -/
structure Chan where
  trained : Bool
  mapout : Bool
  fenced : Bool
  listed : Bool
  spares : BitVec 4
  ce : BitVec 16
  cetot : BitVec 16
  ue : Byte
  /-- Corrected errors of the running interval (R271). -/
  run : Nat
  /-- Delay-code correction in use, and one that waits for its window (R270). -/
  corr : Int
  corrNext : Option Int
  /-- Why and when it was fenced, for the health list (R410): class 0 or 1. -/
  fenceWhy : Byte
  /-- hc in which it was fenced (R272). -/
  fenceHc : Nat
  /-- How many of its 32 ms intervals have begun (R270, R271), and how many of its re-centring windows have come. -/
  interval : Nat
  windows : Nat
deriving DecidableEq, Repr

/-- HBM and the tile caches. -/
structure HbmSys where
  mem : Mem
  live : BitVec 9
  mapout : BitVec 9
  /-- R265: ilv. -/
  ilv : List ChanId
  ceth : BitVec 16
  ueth : Byte
  chans : Tbl Chan
  caches : Tbl TileCache
  /-- R263, R264: sectors with an on-die report of a correction to come at their next read. -/
  onDie : List Nat
  /-- R263: stacks above 85 °C at the last readout, whose refresh rate is doubled. -/
  hot : BitVec 8
  /-- R410: pseudo-channels whose health-list entry waits to be written. -/
  healthWait : List ChanId
deriving DecidableEq, Repr

/-- R467: a Logbook record as its four doublewords; `prio` marks the priority types of R465. -/
structure LogRec where
  dw : List Word64
  prio : Bool
deriving DecidableEq, Repr

/-- R463 to R466: the Logbook and the observation area. -/
structure Obs where
  en : Bool
  base : BitVec 32
  logMib : BitVec 16
  snapMib : BitVec 16
  widx : Word64
  drops : Word32
  /-- Places for ordinary and for priority records, oldest first (R465). -/
  queue : List LogRec
  prio : List LogRec
  /-- Records dropped since the last LOST record, and the stamps of the first and last drop. -/
  lost : Nat
  lostFirst : BitVec 40
  lostLast : BitVec 40
  /-- R464: the window of 1,024 hc, and records written in it; below 0 when the next window is charged. -/
  window : Nat
  spent : Int
deriving DecidableEq, Repr

/-- R481, R463: reset values. -/
def Obs.reset : Obs :=
  { en := false, base := 0, logMib := 0, snapMib := 8, widx := 0, drops := 0, queue := [], prio := [], lost := 0,
    lostFirst := 0, lostLast := 0, window := 0, spent := 0 }

/-- R275: reset value. -/
def Chan.reset : Chan :=
  { trained := false, mapout := false, fenced := false, listed := false, spares := 0, ce := 0, cetot := 0, ue := 0,
    run := 0, corr := 0, corrNext := none, fenceWhy := 0, fenceHc := 0, interval := 0, windows := 0 }

/-- R254: after start nothing is cached. -/
def TileCache.reset : TileCache := { lines := [], fills := [] }

/-- R267, R275: reset values. -/
def HbmSys.reset : HbmSys :=
  { mem := .empty, live := 0, mapout := 0, ilv := [], ceth := 0x40, ueth := 1, chans := [], caches := [],
    onDie := [], hot := 0, healthWait := [] }

/-- R495: D = 64 is 2:1; the module is powered (log 7). -/
def Clock.reset : Clock :=
  { cc := 0, hc := 0, phase := 0, d := 64, frozen := false, powered := true, stopped := false, frozenAt := 0 }

end Sys2Proof.Machine
end

