-- ==== Sys2Proof/Machine/HostState.lean ====
section
/-! DEFINITION. State of the host side of the hub: PCIe ports, ingress queues, the dispatcher and its commands (R312 to R352),
cell groups (R35 to R37), and the pins of the service connector (R484 to R488). -/

namespace Sys2Proof.Machine

/-- R35, R37: a cell group; `orbit` lists its members in orbit order. -/
structure Group where
  defined : Bool
  formed : Bool
  down : Bool
  leader : CellId
  orbit : List CellId
deriving DecidableEq, Repr

/-- R312 to R321: one PCIe port. -/
structure PciPort where
  up : Bool
  speed : BitVec 3
  width : BitVec 4
  epoch : Byte
  wdrop : BitVec 16
  cdrop : BitVec 16
  /-- R312: the maximum payload size that the host has configured: 0 to 2 for 128, 256 and 512 bytes. -/
  mps : BitVec 2
  /-- hc at which the link left L0. -/
  downAt : Nat
  /-- R321: STATE of PCI_VOFFERp. -/
  st : BitVec 2
  agreed : Byte
  hmax : Byte
  hmin : Byte
  /-- PERST# is asserted (R487). -/
  perst : Bool
  /-- D3hot (R312). -/
  d3 : Bool
  /-- R317: the MSI-X table as 128 doublewords, and the pending bits. -/
  msix : Tbl Word64
  pend : Word64
  /-- hc of the last vector-0 notice (R454). -/
  noticeAt : Option Nat
deriving DecidableEq, Repr

/-- R336: a slot: leader, offset in its slice, bytes. -/
structure Slot where
  leader : CellId
  off : Nat
  size : Nat
deriving DecidableEq, Repr

/-- R324, R336: where the payload of a packet goes as it arrives. -/
inductive PktMode where
  | toSlot (s : Slot)
  | waitSlot
  | buffer
  | discard
  /-- Of another generation (R333). -/
  | stale
deriving DecidableEq, Repr

/-- A packet whose header has arrived and passed checks 1 and 2 of R333, or is being skipped. -/
structure Pkt where
  hdr : List Word64
  mode : PktMode
  /-- Payload bytes that have left the ring. -/
  got : List Byte
  /-- Ring bytes of payload and padding still to take. -/
  left : Nat
  /-- Track time at which the header's last byte arrived (R366). -/
  at' : Word64
  /-- Ring bytes freed since the last credit word (R324). -/
  freed : Nat
  /-- The cell that holds its slot has been reset since it took the slot (R455). -/
  torn : Bool
deriving DecidableEq, Repr

/-- R331: values that a QCONFIG sets. -/
structure QCfg where
  vector : BitVec 6
  craddr : Word64
  erraddr : Word64
deriving DecidableEq, Repr

/-- R322 to R326: an ingress queue. -/
structure Queue where
  owner : BitVec 2
  /-- Owner that the Atlas names (R351). -/
  home : BitVec 2
  cls : Class
  st : BitVec 2
  gen : Byte
  stale : BitVec 16
  nextSeq : Word32
  /-- R350: last sequence accepted. -/
  lastSeq : Word32
  credits : Nat
  errcnt : BitVec 16
  /-- Ring bytes freed, and ring bytes written, since the queue opened. -/
  head : Nat
  pos : Nat
  ring : List Byte
  /-- R366: the ring position after each write that has bytes in the ring, and the track time at which it came. -/
  arrived : List (Nat × Word64)
  cur : Option Pkt
  cfg : QCfg
  /-- R331: values for the next packet. -/
  next : Option QCfg
deriving DecidableEq, Repr

/-- How a member's part of a command ended (R342, R468), with its restart floor (R111). -/
inductive EndHow where
  | kend (exit : Word64) (mover : Option (BitVec 4)) (floor : BitVec 16)
  | aborted (floor : BitVec 16)
  /-- The hub ended it before it launched. -/
  | byHub
deriving DecidableEq, Repr

/-- R337: where an accepted command stands. -/
inductive CmdStage where
  | accepted
  | admitted
  /-- Its rings have been sent. -/
  | sent
  /-- Its report is being built (R432). -/
  | building
deriving DecidableEq, Repr

/-- An accepted command (R333 to R347). -/
structure Cmd where
  id : Nat
  hdr : List Word64
  payload : List Byte
  port : PortId
  epoch : Byte
  version : Byte
  queue : QueueId
  cls : Class
  vector : BitVec 6
  slot : Option Slot
  /-- R366: full DEADLINE and START. -/
  deadline : Option Nat
  start : Option Nat
  /-- R468: SCHED has been released. -/
  released : Bool
  at' : Word64
  stage : CmdStage
  /-- Order and track time of its admission. -/
  order : Nat
  admittedAt : Word64
  /-- R339: arbiter sequence number of its admission. -/
  arb : Word32
  members : List CellId
  /-- R43: members whose ring waits for the leader's acknowledgement. -/
  later : List CellId
  ended : List (CellId × EndHow)
  resets : List CellId
  /-- R436: first touching record. -/
  touched : Option Word32
  /-- Track time of the completing event. -/
  endAt : Word64
  /-- R476: status and DETAIL of a control command that has run while the completion engine stood still. -/
  answer : Option (Nat × Nat)
  /-- R348, R349: its port has departed since it was accepted. -/
  departed : Bool
deriving DecidableEq, Repr

/-- R30, R314: a posted write into host memory, oldest first in the list that holds them. -/
structure HostWrite where
  port : PortId
  addr : Nat
  bytes : List Byte
deriving DecidableEq, Repr

/-- R44: a ring on its way to cell `cell`, on the hub link that enters the tile at router `link`, in the cell's column. -/
structure RingFlight where
  cell : CellId
  link : CellId
  ring : Ring
deriving DecidableEq, Repr

/-- The dispatcher, the completion engine and the arbiter (R334 to R351). -/
structure Disp where
  /-- R334: the dispatch table: entries of four doublewords, and its length. -/
  table : Tbl (List Word64)
  len : Nat
  cmds : List Cmd
  nextId : Nat
  nextOrder : Nat
  busySlots : List (CellId × Nat)
  rr : Nat
  /-- Comet admissions in a row while a tide packet waited (R337). -/
  tideWait : Nat
  downms : BitVec 16
  /-- R339: next arbiter sequence number. -/
  arbSeq : Word32
  /-- R339: the hc of the latest admission, and how many events it admits. -/
  arbHc : Nat
  arbN : Nat
  /-- R337: the first hc that may admit the next packet. -/
  admitHc : Nat
  /-- Rings and ends of commands on their way to cells (R39, R111). -/
  flying : List RingFlight
  /-- R22, R43: commands whose payload the leader has not acknowledged, in the order of their sending. -/
  acks : List Nat
  ends : List (CellId × Nat)
  /-- R339, R476: PORT events of the time in which the arbiter stood still: port, kind with version, and the first hc. -/
  portDue : List (PortId × Nat)
  out : List HostWrite
deriving DecidableEq, Repr

/-- R486: the instructions of the JTAG port. -/
inductive Jtag where
  | bypass
  | idcode
  | samplePreload
  | extest
deriving DecidableEq, Repr

/-- R484 to R488: pins and ports of the service connector. -/
structure Service where
  aux : Bool
  /-- SCANEN as it was when the hub left reset. -/
  scanen : Bool
  /-- The address straps: left open, not grounded (R485, log 86). -/
  addr1 : Bool
  addr0 : Bool
  /-- R486: the JTAG instruction, and what its data register captured or drives. -/
  jtag : Jtag
  scan : List Bool
  driven : Bool
  /-- R488: SAFE_LOG index, and the last answer read over SMBus; none when not acknowledged. -/
  logIndex : Byte
  answer : Option (List Byte)
  /-- Last answer of a host register read (R31). -/
  read : Option (PortId × Word64)
deriving DecidableEq, Repr

/-- R37: reset value. -/
def Group.reset : Group := { defined := false, formed := false, down := false, leader := 0, orbit := [] }

/-- R318, R321: reset values; the MSI-X vectors are masked, and the maximum payload size is 128 bytes, as PCIe has them after reset
(log 8). -/
def PciPort.reset : PciPort :=
  { up := false, speed := 0, width := 0, epoch := 0, wdrop := 0, cdrop := 0, mps := 0, downAt := 0, st := 0, agreed := 0, hmax := 0,
    hmin := 0, perst := false, d3 := false, msix := [], pend := 0, noticeAt := none }

/-- R331: a queue that has not been configured. -/
def QCfg.reset : QCfg := { vector := 0, craddr := 0, erraddr := 0 }

/-- R326: reset value. -/
def Queue.reset : Queue :=
  { owner := 2, home := 2, cls := .control, st := 0, gen := 0, stale := 0, nextSeq := 0, lastSeq := 0, credits := 0,
    errcnt := 0, head := 0, pos := 0, ring := [], arrived := [], cur := none, cfg := .reset, next := none }

/-- R352: reset values; the first arbiter sequence number is 1, since 0 marks an event without one (log 16). -/
def Disp.reset : Disp :=
  { table := [], len := 0, cmds := [], nextId := 0, nextOrder := 0, busySlots := [], rr := 0, tideWait := 0, downms := 0x64,
    arbSeq := 1, arbHc := 0, arbN := 0, admitHc := 0, flying := [], acks := [], ends := [], portDue := [], out := [] }

/-- R486, R495: after reset the JTAG instruction is IDCODE, as IEEE 1149.1 has it (log 17). -/
def Service.reset : Service :=
  { aux := false, scanen := false, addr1 := false, addr0 := false, jtag := .idcode, scan := [], driven := false, logIndex := 0, answer := none, read := none }

end Sys2Proof.Machine
end

