-- ==== Sys2Proof/Machine/ServState.lean ====
section
/-! DEFINITION. State of the hub's other units: start and flash (R407 to R433), the safety supervisor (R446 to R454), Survey,
Eclipse and the observation window (R471 to R481), the power governor (R493 to R495). -/

namespace Sys2Proof.Machine

/-- R433: a flash operation as its GO found the registers. -/
structure FlashOp where
  op : Nat
  block : Nat
  pc : Nat
  src : Nat
deriving DecidableEq, Repr

/-- R419: the fuses. -/
structure Fuses where
  /-- SHA-256 of the customer public key; all zeros while blank. -/
  custKey : BitVec 256
  svn : Nat
  /-- The device secret, and ROM and manufacturing data, whose length the manual does not give. -/
  secret : BitVec 256
  mfg : List Byte
deriving DecidableEq, Repr

/-- R423 to R430: start. -/
structure Boot where
  /-- The phase whose work comes next; `State.bootNow` gives what PHASE shows. -/
  phase : Nat
  ready : Bool
  slot : Bool
  fallback : Bool
  custblank : Bool
  reason : Byte
  /-- Directory index of the failing section. -/
  sect : BitVec 10
  fusedSvn : BitVec 6
  atlasSvn : BitVec 6
  idfirst : Bool
  readyms : Word32
  boots : Word32
  prog : Word64
  idpk : BitVec 256
  /-- R423, R488: HUB_FW has been started: PHASE 2 of this attempt has ended. -/
  fwUp : Bool
  /-- R412: the hub firmware memory. -/
  fw : Mem
  /-- A slot the restart was ordered with (R426, R427); none: the boot record's. -/
  useSlot : Option Bool
  /-- R430: BOOT_FLCTL, BOOT_FLSRC and BOOT_FLSTAT. -/
  op : BitVec 3
  block : BitVec 24
  pc : BitVec 9
  src : BitVec 52
  busy : Option FlashOp
  result : BitVec 4
  /-- The operation has been performed and only its end is to come. -/
  doneFlash : Bool
deriving DecidableEq, Repr

/-- R446, R447, R453: the safety supervisor and the watchdog registers. -/
structure Safe where
  safestop : Bool
  notice : Bool
  lost : BitVec 16
  next : Word32
  period : BitVec 16
  /-- SAFE_LOGi: eight doublewords each. -/
  log : Tbl (List Word64)
  /-- hc at which each record was admitted (R454). -/
  logHc : Tbl Nat
  wdogLimit : Word32
  fired : Tbl Word64
deriving DecidableEq, Repr

/-- R473: what a snapshot's header says, but for PARTIAL. -/
structure SnapHead where
  kind : Nat
  flags : Nat
  smear : Nat
  t0 : Word64
  t1 : Word64
  unit : Nat
  arb : Word32
  eph : List Byte
deriving DecidableEq, Repr

/-- R471, R473: a running Survey: what its header will say, with T1 that of its last read; the cell of an automatic one with that cell's entry,
read at T0; the hc in which it began, how many entries it has read and written, and whether a write was refused. -/
structure SurveyRun where
  head : SnapHead
  auto : Option (CellId × List Byte)
  start : Nat
  pos : Nat
  bad : Bool
deriving DecidableEq, Repr

/-- R471 to R481: Survey, Eclipse and the observation window. -/
structure Stops where
  auto : Bool
  survey : Option SurveyRun
  surveys : BitVec 16
  st : BitVec 2
  immed : Bool
  snapdone : Bool
  partial' : Bool
  chan : Word32
  tick : Word64
  rel : Word64
  /-- R477: flits that each optical port has received since the stop. -/
  arrived : Tbl Nat
  /-- R476: the tick hc has ended and the module stands still; its snapshot, with this header, is still to be written. -/
  cut : Option SnapHead
  winReady : Bool
  /-- A window read is under way. -/
  winBusy : Bool
  winAddr : BitVec 46
  winData : List Word64
deriving DecidableEq, Repr

/-- R493 to R495: the power governor and the load curves (R418). -/
structure Gov where
  pest : BitVec 12
  pcap : BitVec 12
  tstep : BitVec 6
  band : BitVec 6
  stretched : BitVec 16
  /-- The KIND 3 body of the Atlas in use. -/
  curve : Option (List Byte)
  /-- KIND 1 bodies by stack, KIND 2 bodies by engine. -/
  hbmCurves : Tbl (List Byte)
  optCurves : Tbl (List Byte)
  /-- hc at which the last window ended. -/
  windowAt : Nat
  /-- hc of the last load-curve lookups of HBM and optics (R270, R380). -/
  hbmAt : Nat
  optAt : Nat
deriving DecidableEq, Repr

/-- R419: fuses as they leave the factory (log 5). -/
def Fuses.reset : Fuses := { custKey := 0, svn := 0, secret := 0, mfg := [] }

/-- R430, R433: reset values. -/
def Boot.reset : Boot :=
  { phase := 0, ready := false, slot := false, fallback := false, custblank := false, reason := 0, sect := 0, fusedSvn := 0,
    atlasSvn := 0, idfirst := false, readyms := 0, boots := 0, prog := 0, idpk := 0, fwUp := false, fw := .empty, useSlot := none, op := 0,
    block := 0, pc := 0, src := 0, busy := none, result := 0, doneFlash := false }

/-- R248, R453: reset values. -/
def Safe.reset : Safe :=
  { safestop := false, notice := false, lost := 0, next := 0, period := 0x3E8, log := [], logHc := [], wdogLimit := 0x1B7740, fired := [] }

/-- R481: reset values. -/
def Stops.reset : Stops :=
  { auto := false, survey := none, surveys := 0, st := 0, immed := false, snapdone := false, partial' := false, chan := 0,
    tick := 0, rel := 0, arrived := [], cut := none, winReady := false, winBusy := false, winAddr := 0, winData := [] }

/-- R495: reset values. -/
def Gov.reset : Gov :=
  { pest := 0, pcap := 0, tstep := 0, band := 0, stretched := 0, curve := none, hbmCurves := [], optCurves := [],
    windowAt := 0, hbmAt := 0, optAt := 0 }

end Sys2Proof.Machine
end

