-- ==== Sys2Proof/Machine/State.lean ====
section
/-! DEFINITION. The state of the block, its reset, and the reasons a step can stop. -/

namespace Sys2Proof.Machine

/-- The whole module. -/
structure State where
  /-- Commands waiting, first in, first out. -/
  pending : List Instr
  /-- The model's own counter that names the next free value (log 2); no field of the manual's. -/
  fresh : Nat
  clk : Clock
  /-- Cells by graticule address; one not listed is as after power-on. -/
  cells : Tbl Cell
  hbm : HbmSys
  time : TimeBase
  opt : Optics
  /-- Orbit packets on their way to a cell of this module, oldest first (R120, R155, R396). -/
  orbit : List OrbitPkt
  obs : Obs
  /-- Error records raised by the hub and not yet admitted (R454). -/
  hubRecs : List ErrRec
  xbar : Xbar
  ports : Tbl PciPort
  queues : Tbl Queue
  groups : Tbl Group
  disp : Disp
  boot : Boot
  flash : Mem
  fuses : Fuses
  safe : Safe
  stops : Stops
  gov : Gov
  pins : Service
deriving DecidableEq, Repr

/-- Why a run stops. The manual gives every command an effect in every state, or none, so no meaning raises a fault. -/
inductive Fault where
  /-- Raised by no meaning; it keeps the type of outcomes whole. Safe. -/
  | unused
deriving DecidableEq, Repr

/-- Why a command has no meaning. -/
inductive Refusal where
  /-- The command of this mnemonic has no meaning in the model yet. Safe. -/
  | notModelled (mnemonic : String)
deriving DecidableEq, Repr

/-- The module after power-on (R9, log 7). -/
def State.reset : State :=
  { pending := [], fresh := 0, clk := .reset, cells := [], hbm := .reset, time := .reset,
    opt := .reset, orbit := [], obs := .reset, hubRecs := [], xbar := .reset, ports := [], queues := [], groups := [],
    disp := .reset, boot := .reset, flash := .empty, fuses := .reset, safe := .reset, stops := .reset, gov := .reset,
    pins := .reset }

end Sys2Proof.Machine
end

