-- ==== Sys2Proof/Machine/Ops.lean ====
section
/-! DEFINITION. Named operations over the state: cells, registers of the pilot, the address map, the homes of bytes, tile
caches, error records, Logbook records. -/

namespace Sys2Proof.Machine

/-- What a command answers. -/
abbrev Out := Host.Outcome State Fault Refusal

/-- R458, R460: a cell that nothing has touched in the `cc` cc since reset: each of its engines has been idle. -/
def Cell.untouched (cc : Nat) : Cell :=
  if cc = 0 then .reset
  else { Cell.reset with trc := { Trc.reset with eng := (List.range 8).map fun e => (e, { Eng.reset with idle := min cc (2 ^ 48 - 1) }) } }

/-- Cell `g`. -/
def State.cell (s : State) (g : CellId) : Cell := s.cells.get (.untouched s.clk.cc) g.toNat

/-- Whether the module runs: powered, not stopped, not frozen. -/
def Clock.runs (c : Clock) : Bool := c.powered && !c.stopped && !c.frozen

/-- Replace cell `g`. -/
def State.setCell (s : State) (g : CellId) (c : Cell) : State := { s with cells := s.cells.set g.toNat c }

/-- Change cell `g`. -/
def State.updCell (s : State) (g : CellId) (f : Cell → Cell) : State := s.setCell g (f (s.cell g))

/-- Whether the arithmetic of cell `g` runs: powered, neither stopped nor frozen (R446, R476), and the cell not in reset. -/
def State.live (s : State) (g : CellId) : Bool :=
  s.clk.powered && !s.clk.stopped && !s.clk.frozen && (s.cell g).id.inReset.isNone

/-- A field of a word: `len` bits from bit `lo` (R7). -/
def bits (v lo len : Nat) : Nat := v / 2 ^ lo % 2 ^ len

/-- Bit `i` of a word. -/
def bit (v i : Nat) : Bool := v / 2 ^ i % 2 == 1

/-- A flag as a number. -/
def b2n (b : Bool) : Nat := if b then 1 else 0

/-- A field of `len` bits read as two's complement. -/
def sbits (v lo len : Nat) : Int :=
  let x := bits v lo len
  if 2 * x < 2 ^ len then x else (x : Int) - 2 ^ len

/-- A 64-bit word from a number. -/
def w64 (n : Nat) : Word64 := BitVec.ofNat 64 n

/-- Counters that saturate at `top`. -/
def satAdd (top v n : Nat) : Nat := min top (v + n)

/-! Pilot registers (R157 to R160). -/

/-- R157: s register `r`; s0 reads as 0. -/
def Pilot.readS (p : Pilot) (r : BitVec 5) : Word64 := if r = 0 then 0 else p.s.get 0 r.toNat

/-- R157: write s register `r`; a write to s0 is discarded. -/
def Pilot.writeS (p : Pilot) (r : BitVec 5) (v : Word64) : Pilot := if r = 0 then p else { p with s := p.s.set r.toNat v }

/-- R159: w register `r`. -/
def Pilot.readW (p : Pilot) (r : BitVec 5) : BitVec 128 := p.w.get 0 r.toNat

/-- R159: write all 128 bits of w register `r`. -/
def Pilot.writeW (p : Pilot) (r : BitVec 5) (v : BitVec 128) : Pilot := { p with w := p.w.set r.toNat v }

/-- R159, R160: f register `r` as 64 bits. -/
def Pilot.readF (p : Pilot) (r : BitVec 5) : Word64 := (p.readW r).setWidth 64

/-- Write the file that `wide` names. -/
def Pilot.writeReg (p : Pilot) (wide : Bool) (r : BitVec 5) (v : BitVec 128) : Pilot :=
  if wide then p.writeW r v else p.writeS r (v.setWidth 64)

/-! The address map (R26). -/

/-- R26, R288: what an address names, for an engine of one cell. Offsets are in bytes. -/
inductive Place where
  | ls (off : Nat)
  | win (off : Nat)
  | slice (g : CellId) (off : Nat)
  | hbm (off : Nat)
  | cellReg (g : CellId) (off : Nat)
  | hubReg (off : Nat)
  | hostWin
  | hole
deriving DecidableEq, Repr

/-- R27: bytes of populated HBM. -/
def State.hbmBytes (s : State) : Nat := s.hbm.live.toNat * 2 ^ 32

/-- R26: the place of a 64-bit address formed by an engine of cell `g`. Bits [63:52] that are not all 0 make a hole. -/
def place (hbmBytes : Nat) (g : CellId) (a : Nat) : Place :=
  if a < 0x40000 then .ls a
  else if a < 0x100000 then .hole
  else if a < 0x140000 then .win (a - 0x100000)
  else if a < 0xF0000000 then .hole
  else if a < 0xF0800000 then .hubReg (a - 0xF0000000)
  else if a < 0xF1000000 then .cellReg (BitVec.ofNat 8 ((a - 0xF0800000) / 0x8000)) ((a - 0xF0800000) % 0x8000)
  else if a < 0xFFFF8000 then .hole
  else if a < 0x100000000 then .cellReg g (a - 0xFFFF8000)
  else if a < 0x1000000000 then .hole
  else if a < 0x2000000000 then
    let o := (a - 0x1000000000) % 0x10000000
    if o < 0xC000000 then .slice (BitVec.ofNat 8 ((a - 0x1000000000) / 0x10000000)) o else .hole
  else if a < 0x10000000000 then .hole
  else if a < 0x10000000000 + hbmBytes && a < 0x20000000000 then .hbm (a - 0x10000000000)
  else if 0x100000000000 ≤ a && a < 0x300000000000 then .hostWin
  else .hole

/-- The first address of the own-window alias (R26). -/
def winBase : Nat := 0x100000

/-- R14: the tile of a cell. -/
def tileOf (g : CellId) : Nat := g.toNat / 64

/-- R26: the global address of offset `off` of cell `g`'s slice. -/
def sliceAddr (g : CellId) (off : Nat) : Nat := 0x1000000000 + g.toNat * 0x10000000 + off

/-! HBM (R265) and tile caches (R255 to R259). -/

/-- R265: the pseudo-channel and the offset in it of HBM offset `a`; none when nothing is live. -/
def HbmSys.chanOf (h : HbmSys) (a : Nat) : Option (ChanId × Nat) :=
  let n := h.live.toNat
  if n = 0 then none
  else
    let g := a / 256
    let j := g % n
    let r := g / n
    let x := (bits r 0 8 ^^^ bits r 8 8 ^^^ bits r 16 8) % n
    match h.ilv[(j + x) % n]? with
    | some p => some (p, r * 256 + a % 256)
    | none => none

/-- Pseudo-channel `p`. -/
def HbmSys.chan (h : HbmSys) (p : ChanId) : Chan := h.chans.get .reset p.toNat

/-- Change pseudo-channel `p`. -/
def HbmSys.updChan (h : HbmSys) (p : ChanId) (f : Chan → Chan) : HbmSys :=
  { h with chans := h.chans.upd .reset p.toNat f }

/-- R272: whether HBM offset `a` lies in a fenced pseudo-channel. -/
def HbmSys.fencedAt (h : HbmSys) (a : Nat) : Bool :=
  match h.chanOf a with
  | some (p, _) => (h.chan p).fenced
  | none => false

/-- The tile cache of tile `t`. -/
def HbmSys.cache (h : HbmSys) (t : Nat) : TileCache := h.caches.get .reset t

/-- R255: a line's set. -/
def setOf (line : Nat) : Nat := line % 131072

/-- The copy of line `n`, if the cache holds one. -/
def TileCache.find (c : TileCache) (n : Nat) : Option Line := c.lines.find? fun l => l.num == n

/-- R258: make line `n` the most recently used of its set. -/
def TileCache.touch (c : TileCache) (n : Nat) : TileCache :=
  match c.find n with
  | some l => { c with lines := l :: c.lines.filter fun x => x.num != n }
  | none => c

/-- Drop the lines that `p` marks, and mark the fills in flight of such lines so that they are not installed (R309). -/
def TileCache.drop (c : TileCache) (p : Nat → Bool) : TileCache :=
  { c with
    lines := c.lines.filter fun l => !p l.num
    fills := c.fills.map fun f => if p f.num then { f with live := false } else f }

/-- R258: keep lines of a set. -/
def TileCache.keeps (c : TileCache) (set : Nat) : Nat := (c.lines.filter fun l => setOf l.num == set && l.keep).length

/-- R258: mark line `n` keep, unless its set already has 12. -/
def TileCache.keep (c : TileCache) (n : Nat) : TileCache :=
  if c.keeps (setOf n) < 12 then
    { c with lines := c.lines.map fun l => if l.num = n then { l with keep := true } else l }
  else c

/-- R258: install a line as the most recently used, in place of the least recently used line of its set that is not marked
keep when all 16 ways are taken. -/
def TileCache.install (c : TileCache) (l : Line) : TileCache :=
  let set := setOf l.num
  let rest := c.lines.filter fun x => x.num != l.num
  let ways := rest.filter fun x => setOf x.num == set
  let l := { l with keep := l.keep && (ways.filter Line.keep).length < 12 }
  if ways.length < 16 then { c with lines := l :: rest }
  else
    match (ways.reverse.find? fun x => !x.keep) with
    | some v => { c with lines := l :: rest.filter fun x => x.num != v.num }
    | none => c

/-- R256, R290: bytes written by a cell of the tile update a present copy; recency does not change (R258). A fill in flight
of the line is not installed (R309). -/
def TileCache.update (c : TileCache) (a : Nat) (bs : List Byte) : TileCache :=
  let upd (l : Line) : Line :=
    let lo := l.num * 256
    if a < lo + 256 && lo < a + bs.length then
      { l with data := ((List.range 256).map fun i =>
                 if a ≤ lo + i && lo + i < a + bs.length then bs.getD (lo + i - a) 0 else l.data.getD i 0)
               wrong := l.wrong.filter fun e => unitKept 8 a bs.length (l.num * 32 + e.1) }
    else l
  { c with
    lines := c.lines.map upd
    fills := c.fills.map fun f =>
      if a < f.num * 256 + 256 && f.num * 256 < a + bs.length then { f with live := false } else f }

/-- Change the cache of tile `t`. -/
def HbmSys.updCache (h : HbmSys) (t : Nat) (f : TileCache → TileCache) : HbmSys :=
  { h with caches := h.caches.upd .reset t f }

/-- R256: write HBM bytes, and update the copy in the tile cache of the writer's tile, if a cell wrote. -/
def HbmSys.writeBy (h : HbmSys) (tile : Option Nat) (a : Nat) (bs : List Byte) : HbmSys :=
  let h' := { h with mem := h.mem.store hbmUnit a bs }
  match tile with
  | some t => h'.updCache t fun c => c.update a bs
  | none => h'

/-- R259: whether 8-byte unit `u` of a line lies in a 64-byte part that `n` bytes at offset `off` of the line meet. -/
def partMet (off n u : Nat) : Bool := off / 64 ≤ u / 8 && u / 8 * 64 < off + n

/-- R253, R259: an access of `n` bytes at offset `off` of line `num`: a part with an uncorrectable error drops the line, which the answer
says; other errors of those parts are corrected. -/
def TileCache.check (c : TileCache) (num off n : Nat) : TileCache × Bool :=
  match c.find num with
  | none => (c, false)
  | some l =>
    let met := l.wrong.filter fun e => partMet off n e.1
    if met.any fun e => sramTop < e.2 then ({ c with lines := c.lines.filter fun x => x.num != num, ue := c.ue + 1 }, true)
    else if met.isEmpty then (c, false)
    else
      ({ c with lines := c.lines.map fun x => if x.num = num then { x with wrong := x.wrong.filter fun e => !partMet off n e.1 } else x
                ce := c.ce + met.length }, false)

/-- R259: `n` wrong bits strike 8-byte unit `u` of line `num`, if the cache holds it. -/
def TileCache.strike (c : TileCache) (num u n : Nat) : TileCache :=
  { c with lines := c.lines.map fun x => if x.num = num && n ≠ 0 then { x with wrong := x.wrong.filter (fun e => e.1 != u)
      ++ [(u, n + ((x.wrong.filter fun e => e.1 == u).map Prod.snd).sum)] } else x }

/-- R19: the class of what an engine of cell `g` sends: that of the command it runs, tide outside any. -/
def State.cellClass (s : State) (g : CellId) : Class := match (s.cell g).run with | some r => r.cls | none => .tide

/-- R19: the class of an access to a place: registers are reached as control. -/
def Place.cls (pl : Place) (c : Class) : Class := match pl with | .cellReg _ _ => .control | .hubReg _ => .control | _ => c

/-! Error records (R451) and the Logbook (R463 to R468). -/

/-- R452: mechanisms. -/
def mechLockstep : Byte := 0x01
/-- R452. -/
def mechHubLockstep : Byte := 0x02
/-- R452. -/
def mechSram : Byte := 0x03
/-- R452. -/
def mechHbm : Byte := 0x04
/-- R452. -/
def mechFlit : Byte := 0x05
/-- R452. -/
def mechChecksum : Byte := 0x06
/-- R452. -/
def mechResidue : Byte := 0x07
/-- R452. -/
def mechVecResidue : Byte := 0x08
/-- R452. -/
def mechVecParity : Byte := 0x09
/-- R452. -/
def mechWatchdog : Byte := 0x0A
/-- R452. -/
def mechSelftest : Byte := 0x0B
/-- R452. -/
def mechTriple : Byte := 0x0C
/-- R452. -/
def mechTimeout : Byte := 0x0D
/-- R452. -/
def mechMover : Byte := 0x0E
/-- R452. -/
def mechStall : Byte := 0x0F
/-- R452. -/
def mechOptical : Byte := 0x10

/-- R452: actions. -/
def actRecord : Byte := 0x00
/-- R452. -/
def actCommand : Byte := 0x01
/-- R452. -/
def actPassAbort : Byte := 0x02
/-- R452. -/
def actCellReset : Byte := 0x03
/-- R452. -/
def actAll : Byte := 0x04
/-- R452. -/
def actFence : Byte := 0x05
/-- R452. -/
def actPortDown : Byte := 0x06
/-- R452. -/
def actSafeStop : Byte := 0x07
/-- R452. -/
def actUnformed : Byte := 0x08

/-- A record raised in cell `g` by `engine`; it names the command the cell runs (R436). -/
def State.cellRec (s : State) (g : CellId) (mech action : Byte) (cls : Byte) (engine : Byte) (code : Nat)
    (addr : Nat) : ErrRec :=
  let c := s.cell g
  { mech := mech, action := action, cls := cls, cell := some g, engine := engine, code := BitVec.ofNat 16 code,
    unit := BitVec.ofNat 16 g.toNat, addr := w64 addr, cmd := c.run.map Running.cmd }

/-- R454: cell `g` sends a record; it waits for the arbiter. -/
def State.raise (s : State) (g : CellId) (mech action : Byte) (cls : Byte) (engine : Byte) (code addr : Nat) : State :=
  s.updCell g fun c => { c with out := c.out ++ [.record (s.cellRec g mech action cls engine code addr)] }

/-- The hub raises a record. -/
def State.raiseHub (s : State) (mech action : Byte) (cls : Byte) (engine : Byte) (unit code addr : Nat)
    (cmd : Option Nat) : State :=
  let r : ErrRec :=
    { mech := mech, action := action, cls := cls, cell := none, engine := engine, code := BitVec.ofNat 16 code,
      unit := BitVec.ofNat 16 unit, addr := w64 addr, cmd := cmd }
  { s with hubRecs := s.hubRecs ++ [r] }

/-! Fencing (R271, R272). -/

/-- R272: fence pseudo-channel `p`; `ue` says that an uncorrectable error caused it. -/
def State.fence (s : State) (p : ChanId) (ue : Bool) : State :=
  if (s.hbm.chan p).fenced then s
  else
    let h := s.hbm.updChan p fun c => { c with fenced := true, fenceWhy := if ue then 1 else 0, fenceHc := s.clk.hc }
    State.raiseHub { s with hbm := { h with healthWait := h.healthWait ++ [p] } } mechHbm actFence (if ue then 1 else 0)
      0xA p.toNat 0 0 none

/-- R271, R275: an uncorrectable error read in HBM counts, and fences at UETH. -/
def State.countUe (s : State) (a : Nat) : State :=
  match s.hbm.chanOf a with
  | none => s
  | some (p, _) =>
    let s' := { s with hbm := s.hbm.updChan p fun c => { c with ue := BitVec.ofNat 8 (satAdd 0xFF c.ue.toNat 1) } }
    if s'.hbm.ueth.toNat ≤ (s'.hbm.chan p).ue.toNat then s'.fence p true else s'

/-- R270, R271: hc in which pseudo-channel `p`'s first 32 ms interval begins, and its length. -/
def intervalStart (p : ChanId) : Nat := p.toNat * 225000
def intervalHc : Nat := 57600000

/-- R271: how many intervals of pseudo-channel `p` have begun by hub count `hc`. -/
def intervalsBy (p : ChanId) (hc : Nat) : Nat := if hc < intervalStart p then 0 else (hc - intervalStart p) / intervalHc + 1

/-- R271, R275: a pseudo-channel's counts once `k` intervals have begun: CE is that of the last complete one. -/
def Chan.roll (x : Chan) (k : Nat) : Chan :=
  if x.interval = k then x
  else { x with ce := if x.interval + 1 = k then BitVec.ofNat 16 (min 0xFFFF x.run) else 0, run := 0, interval := k }

/-- R271, R275: pseudo-channel `p` as it stands in this hc. -/
def State.chanNow (s : State) (p : ChanId) : Chan := (s.hbm.chan p).roll (intervalsBy p s.clk.hc)

/-- R271, R275: a corrected error of pseudo-channel `p` counts, and fences at CETH within one interval. -/
def State.countCe (s : State) (p : ChanId) : State :=
  let x := s.chanNow p
  let x1 := { x with run := x.run + 1, cetot := BitVec.ofNat 16 (satAdd 0xFFFF x.cetot.toNat 1) }
  let s1 := { s with hbm := s.hbm.updChan p fun _ => x1 }
  if s1.hbm.ceth.toNat ≤ x1.run then s1.fence p false else s1

/-- R263, R264, R271: the sectors that `met` marks are read: what the code corrects is written back, and each correction counts, as do on-die
reports of one. -/
def State.hbmCorrect (s : State) (met : Nat → Bool) : State :=
  let h := s.hbm
  let es := (h.mem.soft.map Prod.fst ++ h.onDie).filter met
  if es.isEmpty then s
  else
    let h1 := { h with mem := { h.mem with soft := h.mem.soft.filter fun e => !met e.1 }, onDie := h.onDie.filter fun u => !met u }
    es.foldl (fun s u => match s.hbm.chanOf (u * hbmUnit) with | some (p, _) => s.countCe p | none => s) { s with hbm := h1 }

/-! Reads and writes of memory at its home (R288, R290). -/

/-- Whether cell `g` is in reset, so that its slice and mailbox answer with errors (R457). -/
def State.cellDown (s : State) (g : CellId) : Bool := (s.cell g).id.inReset.isSome

/-- R440: whether a write of `n` bytes at `a` covers a unit that holds an uncorrectable error only in part. -/
def Mem.partialBad (m : Mem) (unit a n : Nat) : Bool :=
  m.bad.any fun u => u * unit < a + n && a < u * unit + unit && (u * unit < a || a + n < u * unit + unit)

/-- R440: raise the RECORD of a partial write over an uncorrectable unit. -/
def State.partialRec (s : State) (bad : Bool) (g : CellId) (mech engine : Byte) (addr : Nat) : State :=
  if bad then s.raise g mech actRecord 1 engine 0 addr else s

/-- Write bytes at their home, for a cell's engine (`by'` is the writing cell; R256, R290, R440). -/
def State.writeHome (s : State) (by' : CellId) (engine : Byte) (pl : Place) (bs : List Byte) : State :=
  match pl with
  | .ls o =>
    let bad := (s.cell by').ls.partialBad sramUnit o bs.length
    (s.updCell by' fun c => { c with ls := c.ls.store sramUnit o bs }).partialRec bad by' mechSram engine o
  | .win o =>
    let bad := (s.cell by').win.partialBad sramUnit o bs.length
    (s.updCell by' fun c => { c with win := c.win.store sramUnit o bs }).partialRec bad by' mechSram engine (winBase + o)
  | .slice g o =>
    let bad := (s.cell g).slice.partialBad sramUnit o bs.length
    (s.updCell g fun c => { c with slice := c.slice.store sramUnit o bs }).partialRec bad by' mechSram engine (sliceAddr g o)
  | .hbm o =>
    let bad := s.hbm.mem.partialBad hbmUnit o bs.length
    let s := s.hbmCorrect fun u => unitMet hbmUnit o bs.length u && unitKept hbmUnit o bs.length u
    ({ s with hbm := s.hbm.writeBy (some (tileOf by')) o bs }).partialRec bad by' mechHbm engine (0x10000000000 + o)
  | _ => s

/-- R442, R457: a write of the hub into the slice of a cell in reset is lost, with a record. Of which command it is no record says: its packet
is not whole yet. -/
def State.lostHubWrite (s : State) (g : CellId) (off : Nat) : State :=
  s.raiseHub mechFlit actRecord 2 9 g.toNat 0 (sliceAddr g off) none

/-- R440, R457: the hub writes bytes into a slice; a cell in reset takes none. -/
def State.hubSlice (s : State) (g : CellId) (o : Nat) (bs : List Byte) : State :=
  if s.cellDown g then s.lostHubWrite g o
  else
    let s1 := s.updCell g fun c => { c with slice := c.slice.store sramUnit o bs }
    if (s.cell g).slice.partialBad sramUnit o bs.length then s1.raiseHub mechSram actRecord 1 9 g.toNat 0 (sliceAddr g o) none else s1

/-- R256, R440: the hub writes bytes into HBM directly, past the tile caches. -/
def State.hubHbm (s : State) (o : Nat) (bs : List Byte) : State :=
  let s1 := s.hbmCorrect fun u => unitMet hbmUnit o bs.length u && unitKept hbmUnit o bs.length u
  let s2 := { s1 with hbm := s1.hbm.writeBy none o bs }
  if s.hbm.mem.partialBad hbmUnit o bs.length then
    s2.raiseHub mechHbm actRecord 1 9 (match s.hbm.chanOf o with | some (p, _) => p.toNat | none => 0) 0 (0x10000000000 + o) none
  else s2

/-- R467: doubleword 0 of a Logbook record. -/
def logDw0 (type engine unit : Nat) (stamp : Word64) : Word64 :=
  w64 (type + engine * 2 ^ 8 + unit * 2 ^ 16 + stamp.toNat % 2 ^ 40 * 2 ^ 24)

/-- R465: drop a record: counted, with the stamps of the first and last drop. -/
def Obs.dropRec (o : Obs) (stamp : Word64) : Obs :=
  let st : BitVec 40 := stamp.setWidth 40
  { o with drops := BitVec.ofNat 32 (satAdd 0xFFFFFFFF o.drops.toNat 1), lost := o.lost + 1, lostFirst := if o.lost = 0 then st else o.lostFirst, lostLast := st }

/-- R463, R465: a Logbook record takes a queue place, or is dropped when EN is 0, when LOGMIB is 0, or, for an ordinary
record, when its 1,024 places are full. -/
def Obs.push (o : Obs) (r : LogRec) (stamp : Word64) : Obs :=
  if !o.en || o.logMib = 0 then o.dropRec stamp
  else if r.prio then { o with prio := o.prio ++ [r] }
  else if o.queue.length < 1024 then { o with queue := o.queue ++ [r] }
  else o.dropRec stamp

/-- Whether `n` bytes of HBM from `a` meet a fenced pseudo-channel (R272). -/
def State.fencedRange (s : State) (a n : Nat) : Bool :=
  (List.range ((a % 256 + n + 255) / 256)).any fun i => s.hbm.fencedAt (a / 256 * 256 + 256 * i)

/-! The ring in HBM (R463 to R466). -/

/-- The bytes of doublewords (R6). -/
def dwBytes (l : List Word64) : List Byte := l.flatMap fun w => leBytes w.toNat 8

/-- R463: HBM offset of the observation area. -/
def Obs.area (o : Obs) : Nat := o.base.toNat * 2 ^ 20 - 0x10000000000

/-- R463: HBM offset of the snapshot area. -/
def Obs.snapArea (o : Obs) : Nat := o.area + o.logMib.toNat * 2 ^ 20

/-- R464: budget of a window, in records. -/
def obsBudget : Nat := 5242

/-- R464, R465: the window that hub cycle `hc` lies in; what an earlier one overdrew is taken from it. -/
def Obs.roll (o : Obs) (hc : Nat) : Obs :=
  let w := hc / 1024
  if w = o.window then o else { o with window := w, spent := max 0 (o.spent - (obsBudget * (w - o.window) : Nat)) }

/-- R464, R466: write one record into the ring, and `after` takes it from where it waits; where its sector is fenced it is refused, and `lost`
takes it. -/
def State.ringRecord (s : State) (dw : List Word64) (after lost : Obs → Obs) : State :=
  let o := s.obs
  let off := o.area + 32 * (o.widx.toNat % (o.logMib.toNat * 32768))
  if s.hbm.fencedAt off then { s with obs := (lost o).dropRec s.time.track }
  else
    let s1 := s.hubHbm off (dwBytes dw)
    { s1 with obs := { after s1.obs with widx := o.widx + 1, spent := o.spent + 1 } }

/-- R467, R468: the LOST record. -/
def State.lostRecord (s : State) : List Word64 :=
  let o := s.obs
  [logDw0 0x0D 0xF 0 s.time.track, w64 (o.lost % 2 ^ 32 * 2 ^ 32), w64 o.lostFirst.toNat, w64 o.lostLast.toNat]

/-- R465: one record leaves its place and is written: after drops a LOST record, which counts as one of them where it is refused; else the oldest
priority record; else, within the budget, the oldest ordinary one. -/
def State.writeRecord (s : State) : State :=
  let o := s.obs
  if o.lost ≠ 0 then s.ringRecord s.lostRecord (fun o => { o with lost := 0 }) id
  else
    match o.prio with
    | r :: rest => let f := fun o : Obs => { o with prio := rest }; s.ringRecord r.dw f f
    | [] =>
      match o.queue with
      | r :: rest => if o.spent < obsBudget then let f := fun o : Obs => { o with queue := rest }; s.ringRecord r.dw f f else s
      | [] => s

/-- R464 to R466: one record is written in this hc, where observation writes are enabled. -/
def State.writeOne (s : State) : State :=
  if !s.obs.en || s.obs.logMib = 0 then s else State.writeRecord { s with obs := s.obs.roll s.clk.hc }

/-- R465: the hub holds 16 places for priority records: one that finds them full takes that of the oldest, which is written first, after a LOST
record that is due; where both are refused it is dropped. -/
def State.prioRoom (s : State) : Nat → State
  | 0 => if s.obs.prio.length ≤ 16 then s else { s with obs := ({ s.obs with prio := s.obs.prio.drop 1 } : Obs).dropRec s.time.track }
  | n + 1 => if s.obs.prio.length ≤ 16 then s else s.writeOne.prioRoom n

/-- R467, R468: emit a Logbook record with a stamp. -/
def State.logAt (s : State) (stamp : Word64) (type engine unit arbseq a : Nat) (b c : Word64) : State :=
  let prio := type == 0x0B || type == 0x0C || type == 0x0D || type == 0x0E
  let r : LogRec :=
    { dw := [logDw0 type engine unit stamp, w64 (arbseq + a % 2 ^ 32 * 2 ^ 32), b, c], prio := prio }
  let s1 := { s with obs := s.obs.push r stamp }
  if prio then s1.prioRoom 2 else s1

/-- R467, R468: emit a Logbook record stamped with the present track time. -/
def State.log (s : State) (type engine unit arbseq a : Nat) (b c : Word64) : State :=
  s.logAt s.time.track type engine unit arbseq a b c

/-- R469: the Logbook records at the head of what cell `g` sends are written. -/
def State.sendNotes (s : State) (g : CellId) : State :=
  let put (s : State) (m : CellMsg) : State :=
    match m with
    | .note t type a b c => (s.logAt t type 0xF g.toNat 0 a b c)
    | _ => s
  let isNote (m : CellMsg) : Bool := match m with | .note _ _ _ _ _ => true | _ => false
  match (s.cell g).out.takeWhile isNote with
  | [] => s
  | l => (l.foldl put s).updCell g fun c => { c with out := c.out.dropWhile isNote }

/-- R468, R469: cell `g` sends a Logbook record; it comes after what the cell has sent before (R22). -/
def State.note (s : State) (g : CellId) (type a : Nat) (b c : Word64) : State :=
  if (s.cell g).out.isEmpty then s.log type 0xF g.toNat 0 a b c
  else s.updCell g fun x => { x with out := x.out ++ [.note s.time.track type a b c] }

/-- Bytes at their home; registers and holes give none here. -/
def State.readHome (s : State) (by' : CellId) (pl : Place) (n : Nat) : List Byte :=
  match pl with
  | .ls o => (s.cell by').ls.readBytes o n
  | .win o => (s.cell by').win.readBytes o n
  | .slice g o => (s.cell g).slice.readBytes o n
  | .hbm o => s.hbm.mem.readBytes o n
  | _ => List.replicate n 0

/-- R440: whether a read of `n` bytes meets an uncorrectable error; a slice of a cell in reset answers so (R457). -/
def State.badHome (s : State) (by' : CellId) (pl : Place) (n : Nat) : Bool :=
  match pl with
  | .ls o => (s.cell by').ls.anyBad sramUnit o n
  | .win o => (s.cell by').win.anyBad sramUnit o n
  | .slice g o => (g != by' && s.cellDown g) || (s.cell g).slice.anyBad sramUnit o n
  | .hbm o => s.hbm.mem.anyBad hbmUnit o n
  | _ => false

/-- R253, R264: a read of `n` bytes at a home, for an engine of cell `by'`, corrects what the code can, counts it and writes it back. -/
def State.correctAt (s : State) (by' : CellId) (pl : Place) (n : Nat) : State :=
  match pl with
  | .ls o => if (s.cell by').ls.soft.isEmpty then s else s.updCell by' fun c => { c with ls := c.ls.correct sramUnit o n }
  | .win o => if (s.cell by').win.soft.isEmpty then s else s.updCell by' fun c => { c with win := c.win.correct sramUnit o n }
  | .slice g o => if (s.cell g).slice.soft.isEmpty then s else s.updCell g fun c => { c with slice := c.slice.correct sramUnit o n }
  | .hbm o => s.hbmCorrect (unitMet hbmUnit o n)
  | _ => s

/-- R259, R440: an access of `n` bytes at HBM offset `a` by an engine of cell `g` reaches the tile cache: a line that it cannot use is
dropped, and a record tells it. -/
def State.cacheCheck (s : State) (g : CellId) (engine : Byte) (a n : Nat) : State :=
  let t := tileOf g
  let r := (s.hbm.cache t).check (a / 256) (a % 256) n
  let s1 := { s with hbm := s.hbm.updCache t fun _ => r.1 }
  if r.2 then s1.raise g mechSram actRecord 1 engine 0 (0x10000000000 + a) else s1

/-- The own store that a place lies in, with its offset; another cell's slice and HBM have none. -/
def Place.own (pl : Place) (g : CellId) : Option (OwnStore × Nat) :=
  match pl with
  | .ls o => some (.localStore, o)
  | .win o => some (.window, o)
  | .slice h o => if h = g then some (.slice, o) else none
  | _ => none

/-- The place of an offset of an own store. -/
def OwnStore.place (st : OwnStore) (g : CellId) (o : Nat) : Place :=
  match st with
  | .localStore => .ls o
  | .window => .win o
  | .slice => .slice g o

/-- Put `x` behind every element whose key is not greater. -/
def insBy {α : Type} (f : α → Nat) (x : α) : List α → List α
  | [] => [x]
  | y :: rest => if f y ≤ f x then y :: insBy f x rest else x :: y :: rest

/-- Order a list by a key; elements of one key keep their order. -/
def sortBy {α : Type} (f : α → Nat) (l : List α) : List α := l.foldl (fun acc x => insBy f x acc) []

/-- R146, R252: place in the order of precedence at a bank. -/
def Storer.rank : Storer → Nat
  | .pass => 0
  | .vector => 1
  | .pilot => 2

/-- R146, R252: the order in which waiting stores land: by visibility cc, and of one cc by precedence, so that the last one's value
remains. -/
def PendStore.key (p : PendStore) : Nat := 4 * p.vis + p.by'.rank

/-- Whether two runs of bytes meet. -/
def overlaps (a n b m : Nat) : Bool := a < b + m && b < a + n

/-- R146, R252: whether store `q` makes store `p` land a cc later: both reach one byte in one cc, and `q` is a vector store and `p` a
pilot's. -/
def PendStore.yields (p q : PendStore) : Bool :=
  q.by' != .pass && decide (q.by'.rank < p.by'.rank) && q.vis == p.vis && q.store == p.store
    && overlaps q.off q.bytes.length p.off p.bytes.length

/-- Bytes with later stores laid over them, oldest store first. -/
def overlay (bs : List Byte) (at' : Nat) (ps : List PendStore) : List Byte :=
  match ps with
  | [] => bs
  | p :: rest =>
    overlay ((List.range bs.length).map fun i =>
      if p.off ≤ at' + i && at' + i < p.off + p.bytes.length then p.bytes.getD (at' + i - p.off) 0 else bs.getD i 0) at' rest

/-- R209, R293, R149: what a read of an own store sees at read cc `r`: the home's bytes, over them every store visible before `r` in the
order in which they land, and over those, for a pilot's load issued in cc `since`, its own earlier stores. -/
def State.readOwn (s : State) (g : CellId) (st : OwnStore) (o n r : Nat) (since : Option Nat) : List Byte :=
  let ps := (s.cell g).stores.filter fun p => p.store == st
  let own (p : PendStore) : Bool := p.by' == .pilot && since.any fun i => decide (p.since < i)
  overlay (s.readHome g (st.place g o) n) o
    (sortBy PendStore.key (ps.filter fun p => decide (p.vis < r)) ++ ps.filter fun p => !decide (p.vis < r) && own p)

/-- The cell and the own store of it in which a place lies, with the offset, for an engine of cell `by'`. -/
def Place.home (pl : Place) (by' : CellId) : Option (CellId × OwnStore × Nat) :=
  match pl with
  | .ls o => some (by', .localStore, o)
  | .win o => some (by', .window, o)
  | .slice h o => some (h, .slice, o)
  | _ => none

/-- Put a store among those that wait for their visibility cc. -/
def Cell.queueStore (c : Cell) (p : PendStore) : Cell := { c with stores := c.stores ++ [p] }

end Sys2Proof.Machine
end

