-- ==== Sys2Proof/Machine/CellRegs.lean ====
section
/-! DEFINITION. The register block of a cell: what each register reads as, what a read clears, what a write does (R24, R34,
R61, R68, R102, R116, R130, R193, R221, R227, R242, R286, R358, R461), and the operations behind those writes. -/

namespace Sys2Proof.Machine

/-! Mailbox (R24, R25). -/

/-- R24, R25: append a word, or drop it when eight are held; each append pends MBOX (R227). -/
def Cell.mboxAppend (c : Cell) (w : Word64) : Cell :=
  if c.mbox.words.length < 8 then
    { c with mbox := { c.mbox with words := c.mbox.words ++ [w] }, exc := { c.exc with mbox := true } }
  else
    { c with mbox := { c.mbox with ovf := true, drops := BitVec.ofNat 16 (satAdd 0xFFFF c.mbox.drops.toNat 1) } }

/-- R24: the oldest word, 0 when the mailbox is empty. -/
def Cell.mboxHead (c : Cell) : Word64 := c.mbox.words.headD 0

/-- R24: remove the oldest word. -/
def Cell.mboxPop (c : Cell) : Cell := { c with mbox := { c.mbox with words := c.mbox.words.tail } }

/-! Vector configuration (R126, R130). -/

/-- R126: whether VT may take a code. -/
def vtValid (c : Nat) : Bool := c == 0 || c == 1 || c == 2 || c == 3 || c == 0xA || c == 0xB || c == 0xD || c == 0xE

/-- R126: VLMAX of a VT code; 0 for codes outside the table. -/
def vlmax (c : Nat) : Nat :=
  if vtValid c then 8192 / ((Elem.ofCode c).getD .fp64).width else 0

/-- R130: a write of VEC_CFG: VT first, if its code is valid; then VL, clamped to the resulting type's VLMAX. -/
def Vec.cfgWrite (v : Vec) (w : Nat) : Vec :=
  let t := if vtValid (bits w 16 4) then BitVec.ofNat 4 (bits w 16 4) else v.vt
  { v with vt := t, vl := min (bits w 0 11) (vlmax t.toNat) }

/-- R59, R61: a write of a generator's state; 0 is stored as 1. -/
def srWrite (v : Nat) : Word32 := if v % 2 ^ 32 = 0 then 1 else BitVec.ofNat 32 v

/-! Counters (R458 to R462). -/

/-- Engine `e`'s counters. -/
def Trc.engine (t : Trc) (e : Nat) : Eng := t.eng.get .reset e

/-- Selected counter `k`. -/
def Trc.selk (t : Trc) (k : Nat) : Sel := t.sel.get .reset k

/-- The spans that hold in cc `now`. -/
def Eng.at' (e : Eng) (now : Nat) : List Span := e.spans.filter fun x => decide (x.from' ≤ now) && decide (now < x.to')

/-- R459: the lower of two reasons; 0 is none. -/
def minWhy (a b : Byte) : Byte := if a = 0 then b else if b = 0 then a else if a.toNat ≤ b.toNat then a else b

/-- R459: the lowest reason that holds in cc `now` in an engine that is not busy; 0 for none. -/
def Eng.whyAt (e : Eng) (now : Nat) : Byte := (e.at' now).foldl (fun a x => minWhy a x.why) e.why

/-- R458: whether a span makes the engine busy in cc `now`. -/
def Eng.works (e : Eng) (now : Nat) : Bool := (e.at' now).any fun x => x.why == 0

/-- R459: an engine's stall reason in cc `now`, 0 when it is not stalled. -/
def Eng.reason (e : Eng) (now : Nat) : Byte := if now < e.busyTo || e.works now then 0 else e.whyAt now

/-- 48-bit counters saturate (R460). -/
def sat48 (n : Nat) : Nat := min n (2 ^ 48 - 1)

/-- R458: of `n` cc from cc `now` on, those in which the engine is not busy. No span begins or ends within them. -/
def Eng.free (e : Eng) (now n : Nat) : Nat := if e.works now then 0 else n - min n (e.busyTo - now)

/-- R458: count `n` cc from cc `now` on for one engine. No span begins or ends within them. -/
def Eng.count (e : Eng) (now n : Nat) : Eng :=
  let k := e.free now n
  let x := { e with busy := sat48 (e.busy + (n - k)), spans := e.spans.filter fun x => now + n < x.to' }
  if e.whyAt now = 0 then { x with idle := sat48 (e.idle + k) } else { x with stall := sat48 (e.stall + k) }

/-- R461: count `n` cc for a selected counter. -/
def Sel.step (x : Sel) (t : Trc) (now n : Nat) : Sel :=
  let e := t.engine x.eng.toNat
  let k := b2n x.fresh
  let hit := e.whyAt now ≠ 0 && e.whyAt now == x.reason
  { x with count := if hit then sat48 (x.count + e.free (now + k) (n - k)) else x.count, fresh := x.fresh && n == 0 }

/-- R460, R461: all counters of a cell over `n` cc. -/
def Trc.count (t : Trc) (now n : Nat) : Trc :=
  { t with eng := (List.range 8).map fun e => (e, (t.engine e).count now n)
           sel := (List.range 4).map fun k => (k, (t.selk k).step t now n) }

/-- R460, R462: the counters over `n` cc, where a launch cc ends the old command's counts and starts the new one's at 0. -/
def Trc.advance (t : Trc) (now n : Nat) : Trc :=
  if n = 0 then t
  else
    match t.launch with
    | none => t.count now n
    | some (_, tag) =>
      let zero (e : Nat) : Eng := { t.engine e with busy := 0, stall := 0, idle := 0 }
      let z : Trc :=
        { t with eng := (List.range 8).map fun e => (e, zero e)
                 sel := t.sel.map fun x => (x.1, { x.2 with count := 0, fresh := false })
                 tag := tag, launch := none }
      z.count (now + 1) (n - 1)

/-- R462: the counters as a read in cc `now` finds them: in a launch cc with that cc included. -/
def Trc.shown (t : Trc) (now : Nat) : Trc := if t.launch.isSome then t.count now 1 else t

/-- R461, R459: TRC_NOW: byte e is engine e's stall reason. -/
def Trc.now (t : Trc) (cc : Nat) : Nat :=
  ((List.range 8).map fun e => ((t.engine e).reason cc).toNat * 2 ^ (8 * e)).sum

/-- R461, R462: a sample at the end of cc `now`: every count with this cc included, the tag and the reasons. -/
def Trc.sample (t : Trc) (now : Nat) : Trc :=
  let c := t.count now 1
  { t with eng := (List.range 8).map fun e =>
             (e, { t.engine e with sBusy := (c.engine e).busy, sStall := (c.engine e).stall, sIdle := (c.engine e).idle })
           sel := (List.range 4).map fun k => (k, { t.selk k with sCount := (c.selk k).count })
           sar := t.launch.isSome, svalid := true, samples := BitVec.ofNat 16 (satAdd 0xFFFF t.samples.toNat 1)
           stag := t.tag, snow := w64 (t.now now) }

/-- R461: a write of TRC_SELk. -/
def Trc.selWrite (t : Trc) (k v : Nat) : Trc :=
  { t with sel := t.sel.set k { t.selk k with eng := BitVec.ofNat 4 (bits v 0 4), reason := BitVec.ofNat 8 (bits v 4 8), count := 0,
                                                     fresh := true } }

/-- Set when engine `e` is busy to, and why it waits after. -/
def Cell.engine (c : Cell) (e busyTo : Nat) (why : Byte) : Cell :=
  let x := c.trc.engine e
  { c with trc := { c.trc with eng := c.trc.eng.set e { x with busyTo := max x.busyTo busyTo, why := why } } }

/-- R458, R459: engine `e` works (`why` 0) or holds for reason `why` from cc `from'` to before cc `to'`. -/
def Cell.span (c : Cell) (e from' to' : Nat) (why : Byte) : Cell :=
  if to' ≤ from' then c
  else
    let x := c.trc.engine e
    { c with trc := { c.trc with eng := c.trc.eng.set e { x with spans := x.spans ++ [{ from' := from', to' := to', why := why }] } } }

/-- R458: engine `e` is idle from now on. -/
def Cell.engineIdle (c : Cell) (e : Nat) : Cell :=
  { c with trc := { c.trc with eng := c.trc.eng.set e { c.trc.engine e with busyTo := 0, why := 0, spans := [] } } }

/-- R458: no engine works: the cell is in reset. -/
def Trc.quiet (t : Trc) : Trc := { t with eng := t.eng.map fun e => (e.1, { e.2 with busyTo := 0, why := 0, spans := [] }) }

/-- R459: an engine that holds for reason `why` no longer does. -/
def Cell.unhold (c : Cell) (e : Nat) (why : Byte) : Cell :=
  if (c.trc.engine e).why = why then c.engine e 0 0 else c

/-- R62, R69, R177: a write of a register of the block that takes effect at the end of cc `t`. -/
def Cell.writeAt (c : Cell) (off : Nat) (v : Word64) (t : Nat) (outer : Bool) : Cell :=
  { c with regs := c.regs ++ [{ off := off, val := v, vis := t, outer := outer }] }

/-! Pass abort (R110, R111). -/

/-- PIDX of a pass (R90). -/
def Pass.pidx (p : Pass) : BitVec 16 := BitVec.ofNat 16 (bits (p.dw.getD 1 0).toNat 40 16)

/-- R118, R102: whether a pass waits for an orbit total: its steps have ended and a row group has no initial total. -/
def Pass.waits (p : Pass) : Bool := p.stage == .stepped && p.groups.any fun x => x.init.isNone

/-- R111: the restart floor: PIDX of the oldest outstanding pass, else of the last committed, else 0. -/
def Arr.floor (a : Arr) : BitVec 16 :=
  match a.passes with
  | p :: _ => p.pidx
  | [] => a.lastCommitted

/-- R97: bubble and wait cc of a pass up to cc `now`. -/
def Pass.stallNow (p : Pass) (now : Nat) : Nat := p.stall + if p.stage == .stepping || p.waits then now - p.due else 0

/-- R459: what the arrays show while HOLD holds a queued pass: its arrays hold for 0x13. -/
def Cell.showHold (c : Cell) : Cell :=
  let next := if c.arr.hold && !(c.arr.passes.any fun p => p.stage == .stepping) then c.arr.passes.find? fun p => p.stage == .queued else none
  let used := match next with | some p => (bits (p.dw.getD 1 0).toNat 9 7 + 15) / 16 | none => 0
  (List.range 4).foldl (fun c a => if a < used then c.engine (2 + a) 0 0x13 else c.unhold (2 + a) 0x13) c

/-- R458: after an abort of pass number `i` the arrays are idle, and the drain too where no older pass is left. -/
def Cell.arraysStop (c : Cell) (i : Nat) : Cell :=
  ((if i = 0 then [2, 3, 4, 5, 7] else [2, 3, 4, 5]) : List Nat).foldl Cell.engineIdle c

/-- R110, R142: abort the outstanding pass number `i` with every pass behind it: nothing of them becomes visible, the feed queue
is emptied (VFEEDs still in flight with it, and slices still owed to a skipped pass: log 47), folds of older passes go on, ARR_ABORT takes
the cause, PABORT becomes pending, and the report goes to the hub. With no such pass nothing happens. -/
def Cell.abortAt (c : Cell) (i : Nat) (cause : Byte) (now : Nat) : Cell :=
  match c.arr.passes[i]? with
  | none => c
  | some p =>
    let a := { c.arr with abortCause := cause, abortPidx := p.pidx, abortFloor := c.arr.floor, abortValid := true,
                          stallShown := p.stallNow now, passes := c.arr.passes.take i, pop := none,
                          folds := c.arr.folds.filter fun f => (c.arr.passes.take i).any fun x => x.issue == f.issue }
    ({ c with arr := a, exc := { c.exc with pabort := true }, vec := { c.vec with feed := [], feedSkip := 0 },
              out := c.out ++ [.aborted (c.run.map Running.cmd) cause c.arr.floor] } : Cell).arraysStop i

/-- R110: the number of the current pass, the oldest that has not begun to commit. -/
def Arr.current (a : Arr) : Nat := (a.passes.findIdx? fun p => p.stage != .committing).getD a.passes.length

/-- R110: abort the current pass. -/
def Cell.abortPass (c : Cell) (cause : Byte) (now : Nat) : Cell := c.abortAt c.arr.current cause now

/-- R103: causes. -/
def abChecksum : Byte := 0x01
/-- R103. -/
def abEcc : Byte := 0x02
/-- R103. -/
def abStall : Byte := 0x03
/-- R103. -/
def abOrbit : Byte := 0x04
/-- R103. -/
def abSupervisor : Byte := 0x05
/-- R103. -/
def abGroup : Byte := 0x06
/-- R103. -/
def abResidue : Byte := 0x07

/-- R111: the hub ends the command in this member: its current pass aborts with cause GROUP, and a member with no
pass to abort sends its floor all the same. -/
def Cell.abortGroup (c : Cell) (now : Nat) : Cell :=
  match c.arr.passes[c.arr.current]? with
  | none => { c with out := c.out ++ [.aborted (c.run.map Running.cmd) abGroup c.arr.floor] }
  | some _ => c.abortPass abGroup now

/-- R102: HOLD. -/
def Cell.setHold (c : Cell) (h : Bool) : Cell := Cell.showHold { c with arr := { c.arr with hold := h } }

/-! Reads. -/

/-- R246, R221: cc left in the open guard window; none before its first cc. -/
def Exc.gleft (e : Exc) (now : Nat) : Nat :=
  match e.guardEnd with
  | some l => if now < e.guardFrom then 0 else l + 1 - now
  | none => 0

/-- R221: CELL_STATUS. -/
def Exc.status (e : Exc) (now : Nat) : Nat :=
  b2n e.pl + b2n e.ceil * 2 + b2n e.im * 4 + b2n e.pim * 8 + b2n (0 < e.gleft now) * 16 + e.gleft now * 2 ^ 16

/-- R228: STAT of a frame: CELL_STATUS[3:0]. -/
def Exc.stat (e : Exc) : Nat := b2n e.pl + b2n e.ceil * 2 + b2n e.im * 4 + b2n e.pim * 8

/-- R68: CELL_FPSTAT. -/
def FpState.stat (f : FpState) : Nat := f.pil.toNat + f.vec.toNat * 2 ^ 8 + f.drn.toNat * 2 ^ 16

/-- R102: whether a pass steps in cc `now`: from its first broadcast to the end of its last step. One without steps never does. -/
def Pass.runs (p : Pass) (now : Nat) : Bool :=
  decide (p.start ≤ now) && (p.stage == .stepping || (p.stage == .stepped && decide (now < p.due)))

/-- R102: ARR_STATUS. STALL while no pass steps or waits is the model's choice (log 46). -/
def Arr.status (a : Arr) (now : Nat) : Nat :=
  let run := a.passes.any fun p => p.runs now
  let st := match a.passes.find? fun p => p.stage == .stepping || p.waits with | some p => p.stallNow now | none => a.stallShown
  a.passes.length + b2n run * 4 + b2n (a.hold && !run) * 8 + b2n (a.passes.any fun p => p.waits && decide (p.due ≤ now)) * 16
    + min st (2 ^ 32 - 1) * 2 ^ 16

/-- R116: CELL_ORBIT. -/
def OrbitReg.word (o : OrbitReg) : Nat :=
  o.next.toNat + b2n o.nextV * 2 ^ 8 + b2n o.nextX * 2 ^ 9 + o.oport.toNat * 2 ^ 10 + o.prev.toNat * 2 ^ 16
    + b2n o.prevV * 2 ^ 24 + b2n o.prevX * 2 ^ 25 + o.iport.toNat * 2 ^ 26

/-- What a register of cell `g`'s block reads as; none where no register lies. VEC_FEED.COUNT counts VFEEDs in flight (log 41). -/
def State.cellRegRead (s : State) (g : CellId) (off : Nat) : Option Nat :=
  let c := s.cell g
  let now := s.clk.cc
  let e := c.exc
  if off = 0x0000 then some (g.toNat + c.id.group.toNat * 2 ^ 8 + b2n c.id.leader * 2 ^ 15 + b2n c.id.present * 2 ^ 16)
  else if off = 0x0100 then some 0
  else if off = 0x0108 then some c.mboxHead.toNat
  else if off = 0x0110 then some (c.mbox.words.length + b2n c.mbox.ovf * 2 ^ 8 + c.mbox.drops.toNat * 2 ^ 16)
  else if off = 0x0200 then some (c.fp.prm.toNat + c.fp.vrm.toNat * 4)
  else if off = 0x0208 then some c.fp.stat
  else if off = 0x0210 then some c.fp.srv.toNat
  else if off = 0x0218 then some c.fp.srd.toNat
  else if off = 0x0400 then some (b2n c.arr.hold + c.arr.restart.toNat * 2 ^ 16)
  else if off = 0x0408 then some (c.arr.status now)
  else if off = 0x0410 then some c.arr.done.toNat
  else if off = 0x0418 then some c.arr.stallLimit.toNat
  else if off = 0x0420 then some (c.arr.abortCause.toNat + c.arr.abortPidx.toNat * 2 ^ 8 + c.arr.abortFloor.toNat * 2 ^ 24
      + b2n c.arr.abortValid * 2 ^ 40)
  else if off = 0x0428 then some c.arr.orbit.word
  else if off = 0x0600 then some (c.vec.vl + c.vec.vt.toNat * 2 ^ 16)
  else if off = 0x0608 then some (c.vec.feed.length + b2n c.vec.feedStall.isSome * 2 ^ 6)
  else if off = 0x0610 then some c.vec.waitLimit.toNat
  else if off = 0x0618 then some (c.vec.inbox.length + b2n c.vec.ovf * 8 + b2n c.vec.vorb.isSome * 16
      + b2n c.vec.timeout * 32 + b2n c.vec.mismatch * 64)
  else if 0x0800 ≤ off && off < 0x0880 && off % 8 = 0 then some (c.uc.udt.get 0 ((off - 0x800) / 8)).toNat
  else if off = 0x0880 then some c.uc.index.toNat
  else if off = 0x0888 then some (c.uc.store.get 0 c.uc.index.toNat).toNat
  else if off = 0x0A00 then some (e.status now)
  else if off = 0x0A08 then some (7 + b2n e.ienMbox * 8)
  else if off = 0x0A10 then some (b2n e.mchk + b2n e.hubreq * 2 + b2n e.pabort * 4 + b2n e.mbox * 8)
  else if off = 0x0A18 then some e.ssp.toNat
  else if off = 0x0A20 then some (e.vb.toNat * 2 ^ 10)
  else if off = 0x0A28 then some (e.ub.toNat * 2 ^ 10)
  else if off = 0x0A30 then some e.deleg.toNat
  else if off = 0x0A38 then some (e.gb.toNat * 2 ^ 4 + e.gcount.toNat * 2 ^ 18)
  else if off = 0x0A40 then some e.cause.toNat
  else if off = 0x0A48 then some e.addr.toNat
  else if off = 0x0A50 then some (e.dfOrig.toNat + b2n e.indf * 2 ^ 8)
  else if off = 0x0A58 then some e.dfsp.toNat
  else if off = 0x0C00 then some (c.mov.cmds.length + (c.mov.cmds.filter MovCmd.started).length * 2 ^ 5
      + c.mov.issued % 2 ^ 32 * 2 ^ 32)
  else if off = 0x0C08 then some (c.mov.code.toNat + b2n c.mov.valid * 2 ^ 4 + b2n c.mov.more * 2 ^ 5
      + c.mov.ticket.toNat * 2 ^ 32)
  else if off = 0x0C10 then some c.mov.errAddr.toNat
  else if off = 0x0E00 then some s.time.track.toNat
  else if off = 0x1000 then some (b2n c.trc.sar * 2 + b2n c.trc.svalid * 4 + c.trc.samples.toNat * 2 ^ 16)
  else if off = 0x1008 then some c.trc.tag.toNat
  else if off = 0x1010 then some c.trc.stag.toNat
  else if 0x1100 ≤ off && off < 0x11C0 && off % 8 = 0 then
    let x := (c.trc.shown now).engine ((off - 0x1100) / 0x18)
    let k := (off - 0x1100) % 0x18
    some (if k = 0 then x.busy else if k = 8 then x.stall else x.idle)
  else if 0x1200 ≤ off && off < 0x12C0 && off % 8 = 0 then
    let x := c.trc.engine ((off - 0x1200) / 0x18)
    let k := (off - 0x1200) % 0x18
    some (if k = 0 then x.sBusy else if k = 8 then x.sStall else x.sIdle)
  else if 0x1300 ≤ off && off < 0x1320 && off % 8 = 0 then
    let x := c.trc.selk ((off - 0x1300) / 8)
    some (x.eng.toNat + x.reason.toNat * 2 ^ 4)
  else if 0x1320 ≤ off && off < 0x1340 && off % 8 = 0 then some ((c.trc.shown now).selk ((off - 0x1320) / 8)).count
  else if 0x1340 ≤ off && off < 0x1360 && off % 8 = 0 then some (c.trc.selk ((off - 0x1340) / 8)).sCount
  else if off = 0x1360 then some (c.trc.now now)
  else if off = 0x1368 then some c.trc.snow.toNat
  else if off = 0x1380 then some 0
  else none

/-- R9, R24: what a read by the owning pilot clears or removes: the mailbox's head, and DROPS. -/
def Cell.regReadEffect (c : Cell) (off : Nat) : Cell :=
  if off = 0x0108 then c.mboxPop
  else if off = 0x0110 then { c with mbox := { c.mbox with drops := 0 } }
  else c

/-! Writes. -/

/-- A W1C flag after a write. -/
def w1c (f w : Bool) : Bool := f && !w

/-- A field of flags after a W1C write. -/
def w1cBits (n : Nat) (f : BitVec n) (w : Nat) : BitVec n := f &&& ~~~(BitVec.ofNat n w)

/-- R68: a W1C write of CELL_FPSTAT. -/
def FpState.clear (f : FpState) (w : Nat) : FpState :=
  { f with pil := w1cBits 5 f.pil (bits w 0 5), vec := w1cBits 5 f.vec (bits w 8 5), drn := w1cBits 5 f.drn (bits w 16 5) }

/-- R468: emit a MARK record for cell `g`. -/
def State.mark (s : State) (g : CellId) (v : Word64) : State := s.note g 0x10 0 v 0

/-- A write of a status or exception register (R221, R222, R225 to R227, R242, R243). IM takes 1 only at supervisor level. -/
def Exc.regWrite (e : Exc) (off : Nat) (val : Word64) : Exc :=
  let v := val.toNat
  if off = 0x0A00 then { e with im := bit v 2 && e.pl, pim := bit v 3 }
  else if off = 0x0A08 then { e with ienMbox := bit v 3 }
  else if off = 0x0A10 then { e with mbox := w1c e.mbox (bit v 3) }
  else if off = 0x0A18 then { e with ssp := val }
  else if off = 0x0A20 then { e with vb := BitVec.ofNat 8 (bits v 10 8) }
  else if off = 0x0A28 then { e with ub := BitVec.ofNat 8 (bits v 10 8) }
  else if off = 0x0A30 then { e with deleg := BitVec.ofNat 7 v &&& 0b1111010 }
  else if off = 0x0A38 then { e with gb := BitVec.ofNat 14 (bits v 4 14), gcount := BitVec.ofNat 11 (bits v 18 11) }
  else if off = 0x0A50 then { e with indf := w1c e.indf (bit v 8) }
  else e

/-- What a write by supervisor code does to a register of cell `g`'s block. RO fields, reserved bits and offsets without a
register take nothing (R9, R10). -/
def State.cellRegWrite (s : State) (g : CellId) (off : Nat) (val : Word64) : State :=
  let v := val.toNat
  if off = 0x0100 then s.updCell g fun c => c.mboxAppend val
  else if off = 0x0110 then s.updCell g fun c => { c with mbox := { c.mbox with ovf := w1c c.mbox.ovf (bit v 8) } }
  else if off = 0x0200 then
    s.updCell g fun c => { c with fp := { c.fp with prm := BitVec.ofNat 2 (bits v 0 2), vrm := BitVec.ofNat 2 (bits v 2 2) } }
  else if off = 0x0208 then s.updCell g fun c => { c with fp := c.fp.clear v }
  else if off = 0x0210 then s.updCell g fun c => { c with fp := { c.fp with srv := srWrite v } }
  else if off = 0x0218 then s.updCell g fun c => { c with fp := { c.fp with srd := srWrite v } }
  else if off = 0x0400 then
    s.updCell g fun c => let c' := c.setHold (bit v 0); if bit v 1 then c'.abortPass abSupervisor s.clk.cc else c'
  else if off = 0x0418 then
    s.updCell g fun c => { c with arr := { c.arr with stallLimit := BitVec.ofNat 32 (max 0x100 (bits v 0 32)) } }
  else if off = 0x0420 then s.updCell g fun c => { c with arr := { c.arr with abortValid := w1c c.arr.abortValid (bit v 40) } }
  else if off = 0x0600 then s.updCell g fun c => { c with vec := c.vec.cfgWrite v }
  else if off = 0x0610 then
    s.updCell g fun c => { c with vec := { c.vec with waitLimit := BitVec.ofNat 32 (max 0x100 (bits v 0 32)) } }
  else if off = 0x0618 then
    s.updCell g fun c => { c with vec := { c.vec with ovf := w1c c.vec.ovf (bit v 3), timeout := w1c c.vec.timeout (bit v 5),
                                                       mismatch := w1c c.vec.mismatch (bit v 6) } }
  else if off = 0x0880 then s.updCell g fun c => { c with uc := { c.uc with index := BitVec.ofNat 9 v } }
  else if 0x0A00 ≤ off && off < 0x0A60 then s.updCell g fun c => { c with exc := c.exc.regWrite off val }
  else if off = 0x0C08 then
    s.updCell g fun c => { c with mov := { c.mov with valid := w1c c.mov.valid (bit v 4), more := w1c c.mov.more (bit v 5) } }
  else if off = 0x1000 then if bit v 0 then s.updCell g fun c => { c with trc := c.trc.sample s.clk.cc } else s
  else if 0x1300 ≤ off && off < 0x1320 && off % 8 = 0 then
    s.updCell g fun c => { c with trc := c.trc.selWrite ((off - 0x1300) / 8) v }
  else if off = 0x1380 then s.mark g val
  else s

end Sys2Proof.Machine
end

