-- ==== Sys2Proof/Machine/HubRegs.lean ====
section
/-! DEFINITION. The hub registers (R26): what each reads as, and what a read clears (R37, R248, R267, R275, R317, R318, R321,
R326, R352, R358, R372, R390, R391, R393, R398, R399, R430, R433, R453, R481, R495). -/

namespace Sys2Proof.Machine

/-- hc of one millisecond (R5). -/
def hcPerMs : Nat := 1800000

/-- Milliseconds since hc `t`, saturating at 0xFFFF. -/
def State.msSince (s : State) (t : Nat) : Nat := min 0xFFFF ((s.clk.hc - t) / hcPerMs)

/-- Group `n`. -/
def State.group (s : State) (n : Nat) : Group := s.groups.get .reset n

/-- PCIe port `p`. -/
def State.pport (s : State) (p : PortId) : PciPort := s.ports.get .reset p.toNat

/-- Change PCIe port `p`. -/
def State.updPport (s : State) (p : PortId) (f : PciPort → PciPort) : State :=
  { s with ports := s.ports.upd .reset p.toNat f }

/-- Ingress queue `q`. -/
def State.queue (s : State) (q : QueueId) : Queue := s.queues.get .reset q.toNat

/-- Change queue `q`. -/
def State.updQueue (s : State) (q : QueueId) (f : Queue → Queue) : State :=
  { s with queues := s.queues.upd .reset q.toNat f }

/-! Track time ahead, and the arbiter (R339). -/

/-- R354: track time after `k` hc. -/
def TimeBase.tick (t : TimeBase) (k : Nat) : TimeBase :=
  let v := t.track.toNat * 2 ^ 32 + t.frac + t.inc.toNat * k
  { t with track := w64 (v / 2 ^ 32), frac := v % 2 ^ 32 }

/-- R357, R363: apply a change to track time and INC. -/
def TimeBase.apply (t : TimeBase) (c : TimeChange) : TimeBase :=
  let track := t.track + BitVec.ofInt 64 c.add
  let inc := match c.inc with | some i => i | none => BitVec.ofInt 32 (t.inc.toNat + c.move)
  { t with track := track, inc := inc, set := t.set || c.first, stepped := t.stepped || c.stepped
           steps := if c.stepped then BitVec.ofNat 16 (satAdd 0xFFFF t.steps.toNat 1) else t.steps
           secSeen := if c.first then track.toNat / 2 ^ 30 else t.secSeen }

/-- R357: the time base in hub cycle `h`, from hub cycle `hc` on, with the decided changes of the list. -/
def TimeBase.ahead (t : TimeBase) (hc h : Nat) : List TimeChange → TimeBase
  | [] => t.tick (h - hc)
  | c :: rest => if c.due ≤ h then ((t.tick (c.due - hc)).apply c).ahead (max hc c.due) h rest else t.tick (h - hc)

/-- R339: the hc, from `hc` on, in which the arbiter admits its next event, and how many it then has admitted in it: two at most. -/
def Disp.place (d : Disp) (hc : Nat) : Nat × Nat :=
  if d.arbN = 0 || d.arbHc < hc then (hc, 1) else if d.arbN < 2 then (d.arbHc, d.arbN + 1) else (d.arbHc + 1, 1)

/-- R339: the arbiter admits an event of hub cycle `hc`. -/
def State.takeArb (s : State) (hc : Nat) : State :=
  let p := s.disp.place hc
  { s with disp := { s.disp with arbSeq := s.disp.arbSeq + 1, arbHc := p.1, arbN := p.2 } }

/-- R339: the trace stamp of the next event, one of hub cycle `hc`: track time at its admission. -/
def State.arbStamp (s : State) (hc : Nat) : Word64 := (s.time.ahead s.clk.hc (s.disp.place hc).1 s.time.changes).track

/-- R339, R468: the arbiter admits an event of hub cycle `hc`, which takes the next sequence number and a stamp; its Logbook record. -/
def State.logArbFrom (s : State) (hc type engine unit a : Nat) (b c : Word64) : State :=
  (s.logAt (s.arbStamp hc) type engine unit s.disp.arbSeq.toNat a b c).takeArb hc

/-- R339, R468: the arbiter admits an event of this hc. -/
def State.logArb (s : State) (type engine unit a : Nat) (b c : Word64) : State := s.logArbFrom s.clk.hc type engine unit a b c

/-- A bit mask of the cells 64k to 64k + 63 of a list. -/
def cellMask (l : List CellId) (k : Nat) : Nat :=
  ((List.range 64).map fun i => b2n (l.any fun g => g.toNat == 64 * k + i) * 2 ^ i).sum

/-- R37: HUB_GROUP_MASKk and HUB_GROUP_CTL. -/
def Group.reg (g : Group) (off : Nat) : Option Nat :=
  if off % 8 = 0 && off < 0x20 then some (cellMask g.orbit (off / 8))
  else if off = 0x20 then
    some (b2n g.defined + b2n g.formed * 2 + b2n g.down * 4 + g.leader.toNat * 2 ^ 8 + g.orbit.length * 2 ^ 16)
  else none

/-- R275: HBM_PCSTATp. -/
def Chan.word (c : Chan) : Nat :=
  b2n c.trained + b2n c.mapout * 2 + b2n c.fenced * 4 + b2n c.listed * 8 + c.spares.toNat * 2 ^ 4 + c.ce.toNat * 2 ^ 16
    + c.cetot.toNat * 2 ^ 32 + c.ue.toNat * 2 ^ 48

/-- R321, R318: the registers of one port. -/
def State.portReg (s : State) (p : PortId) (off : Nat) : Option Nat :=
  let x := s.pport p
  if off = 0 then some (0x32 + 0x30 * 2 ^ 8 + 2 ^ 16 + x.st.toNat * 2 ^ 17 + x.agreed.toNat * 2 ^ 24)
  else if off = 8 then some (x.hmax.toNat + x.hmin.toNat * 2 ^ 8)
  else if off = 0x10 then
    some (b2n x.up + x.speed.toNat * 2 + x.width.toNat * 2 ^ 4 + x.epoch.toNat * 2 ^ 8 + x.wdrop.toNat * 2 ^ 16
      + x.cdrop.toNat * 2 ^ 32 + (if x.up then 0 else s.msSince x.downAt) * 2 ^ 48)
  else none

/-- R317: doubleword `i` of the MSI-X table, in the standard layout: address, then data and the vector control, whose mask bit
is set until it is written (log 8). -/
def PciPort.msixDw (x : PciPort) (i : Nat) : Nat := (x.msix.get (if i % 2 = 1 then w64 (2 ^ 32) else 0) i).toNat

/-- Class as a number (R326, R383). -/
def clsNat : Class → Nat
  | .control => 0
  | .comet => 1
  | .tide => 2

/-- R326: PCI_QSTATq. -/
def Queue.statWord (q : Queue) : Nat :=
  q.owner.toNat + clsNat q.cls * 4 + q.st.toNat * 2 ^ 4 + q.gen.toNat * 2 ^ 6 + q.stale.toNat * 2 ^ 16
    + q.nextSeq.toNat * 2 ^ 32

/-- R326: PCI_QCREDq. -/
def Queue.credWord (q : Queue) : Nat := q.credits % 2 ^ 16 + q.errcnt.toNat * 2 ^ 16 + q.head % 2 ^ 32 * 2 ^ 32

/-- R358: TIME_STAT. -/
def TimeBase.stat (t : TimeBase) : Nat :=
  b2n t.set + b2n t.locked * 2 + b2n t.holdover * 4 + b2n t.ppsloss * 8 + b2n t.ptmerr * 16 + b2n t.stepped * 32
    + t.steps.toNat * 2 ^ 16 + (BitVec.ofInt 32 t.lasterr).toNat * 2 ^ 32

/-- R358: the registers of the time base. -/
def TimeBase.reg (t : TimeBase) (off : Nat) : Option Nat :=
  if off = 0 then some t.track.toNat
  else if off = 8 then some t.inc.toNat
  else if off = 0x10 then
    some (t.mode.toNat + t.port.toNat * 4 + t.steplim.toNat * 2 ^ 16 + t.period.toNat * 2 ^ 48)
  else if off = 0x18 then some t.stat
  else if off = 0x20 then some t.ppscap.toNat
  else none

/-- R372: an Ephemeris entry. -/
def State.ephReg (s : State) (p off : Nat) : Option Nat :=
  let e := s.opt.eph.get .reset p
  if off = 0 then some e.offset.toNat
  else if off = 8 then some (e.rtt.toNat + e.bound.toNat * 2 ^ 32)
  else if off = 0x10 then
    some (e.peer.toNat + b2n e.valid * 2 ^ 16 + b2n e.peerset * 2 ^ 17 + e.samples.toNat * 2 ^ 24
      + (if e.samples = 0 then 0 else s.msSince e.at') * 2 ^ 32)
  else none

/-- R390: LNK_PORTSTATp and LNK_ERRp. -/
def OptPort.reg (x : OptPort) (off : Nat) : Option Nat :=
  if off = 0 then
    some (b2n x.up + b2n x.used * 2 + x.width.toNat * 4 + x.why.toNat * 2 ^ 4 + x.peerv.toNat * 2 ^ 8
      + x.peerport.toNat * 2 ^ 16 + x.peermod.toNat * 2 ^ 20 + x.spares.toNat * 2 ^ 36 + x.replays.toNat * 2 ^ 48)
  else if off = 8 then some (x.csym.toNat + x.ucw.toNat * 2 ^ 16 + x.retrains.toNat * 2 ^ 32 + x.badpkt.toNat * 2 ^ 40)
  else none

/-- R430: BOOT_STAT. -/
def Boot.stat (b : Boot) : Nat :=
  b.phase % 16 + b2n b.ready * 2 ^ 4 + b2n b.slot * 2 ^ 5 + b2n b.fallback * 2 ^ 6 + b2n b.custblank * 2 ^ 7
    + b.reason.toNat * 2 ^ 8 + b.sect.toNat * 2 ^ 16 + b.fusedSvn.toNat * 2 ^ 26 + b.atlasSvn.toNat * 2 ^ 32
    + b2n b.idfirst * 2 ^ 38

/-- R430, R433: the start and flash registers. -/
def Boot.reg (b : Boot) (off : Nat) : Option Nat :=
  if off = 0 then some b.stat
  else if off = 8 then some (b.readyms.toNat + b.boots.toNat * 2 ^ 32)
  else if off = 0x18 then some b.prog.toNat
  else if 0x20 ≤ off && off < 0x40 && off % 8 = 0 then some (bits b.idpk.toNat (8 * (off - 0x20)) 64)
  else if off = 0x100 then some (b.op.toNat + b.block.toNat * 2 ^ 16 + b.pc.toNat * 2 ^ 40)
  else if off = 0x108 then some b.src.toNat
  else if off = 0x110 then some (b2n b.busy.isSome + b.result.toNat * 2 ^ 4)
  else none

/-- R377, R423: a port is in training. -/
def State.optTraining (s : State) : Bool := s.opt.ports.any fun e => e.2.linked && !e.2.up && e.2.retrain.isNone

/-- R423: the start as PHASE shows it: 4 until every branch of training has ended, and 7 until the module is ready. -/
def State.bootNow (s : State) : Boot :=
  { s.boot with phase := if s.boot.phase = 5 && s.optTraining then 4 else if s.boot.phase = 8 && !s.boot.ready then 7 else s.boot.phase }

/-- R453, R447: SAFE_STAT. -/
def Safe.stat (x : Safe) : Nat :=
  b2n x.safestop + b2n (decide (0x6DDD00 < x.wdogLimit.toNat)) * 2 + b2n x.notice * 4 + x.lost.toNat * 2 ^ 16
    + x.next.toNat * 2 ^ 32

/-- R481: the observation registers. -/
def State.trcReg (s : State) (off : Nat) : Option Nat :=
  let o := s.obs
  let x := s.stops
  if off = 0 then some (b2n o.en + o.base.toNat * 2 ^ 20)
  else if off = 8 then some (o.logMib.toNat + o.snapMib.toNat * 2 ^ 16)
  else if off = 0x10 then some o.widx.toNat
  else if off = 0x18 then some (o.queue.length + o.prio.length + o.drops.toNat * 2 ^ 32)
  else if off = 0x20 then some (b2n x.auto * 2 + b2n x.survey.isSome * 4 + x.surveys.toNat * 2 ^ 16)
  else if off = 0x28 then some 0
  else if off = 0x30 then
    some (x.st.toNat + b2n x.immed * 4 + b2n x.snapdone * 8 + b2n x.partial' * 16 + x.chan.toNat * 2 ^ 32)
  else if off = 0x38 then some x.tick.toNat
  else if off = 0x40 then some x.rel.toNat
  else if off = 0x48 then some (b2n x.winReady + x.winAddr.toNat * 2 ^ 6)
  else if 0x50 ≤ off && off < 0x90 && off % 8 = 0 then some (x.winData.getD ((off - 0x50) / 8) 0).toNat
  else none

/-- R495: HUB_GOV_STAT. -/
def State.govStat (s : State) : Nat :=
  let x := s.gov
  s.clk.d.toNat + x.pest.toNat * 2 ^ 8 + x.pcap.toNat * 2 ^ 20 + x.tstep.toNat * 2 ^ 32 + x.band.toNat * 2 ^ 38
    + b2n x.curve.isSome * 2 ^ 44 + x.stretched.toNat * 2 ^ 48

/-- R495: HUB_MOD_STAT. -/
def State.modStat (s : State) : Nat := 1 + b2n s.pins.aux * 2 ^ 8 + b2n s.pins.scanen * 2 ^ 9

/-- What a hub register reads as; none where no register lies. The MSI-X registers are seen through a port only (R317). -/
def State.hubRegRead (s : State) (port : Option PortId) (off : Nat) : Option Nat :=
  if off % 8 ≠ 0 then none
  else if 0x10000 ≤ off && off < 0x11000 then (s.group ((off - 0x10000) / 0x40)).reg ((off - 0x10000) % 0x40)
  else if off = 0x20000 then some s.safe.wdogLimit.toNat
  else if 0x20008 ≤ off && off < 0x20028 then some (s.safe.fired.get 0 ((off - 0x20008) / 8)).toNat
  else if off = 0x30000 then some (s.hbm.live.toNat + s.hbm.mapout.toNat * 2 ^ 16)
  else if off = 0x30008 then some (s.hbm.ceth.toNat + s.hbm.ueth.toNat * 2 ^ 16)
  else if 0x31000 ≤ off && off < 0x31800 then
    let i := (off - 0x31000) / 8
    some ((s.hbm.ilv.getD i 0).toNat + b2n (decide (i < s.hbm.live.toNat)) * 2 ^ 8)
  else if 0x32000 ≤ off && off < 0x32800 then some (s.chanNow (BitVec.ofNat 8 ((off - 0x32000) / 8))).word
  else if 0x40000 ≤ off && off < 0x40200 then s.portReg (BitVec.ofNat 1 ((off - 0x40000) / 0x100)) ((off - 0x40000) % 0x100)
  else if off = 0x40800 then some s.disp.downms.toNat
  else if 0x41000 ≤ off && off < 0x43000 then some (s.queue (BitVec.ofNat 10 ((off - 0x41000) / 8))).statWord
  else if 0x43000 ≤ off && off < 0x45000 then some (s.queue (BitVec.ofNat 10 ((off - 0x43000) / 8))).credWord
  else if 0x46000 ≤ off && off < 0x46400 then port.map fun p => (s.pport p).msixDw ((off - 0x46000) / 8)
  else if off = 0x46800 then port.map fun p => (s.pport p).pend.toNat
  else if 0x50000 ≤ off && off < 0x50100 then s.time.reg (off - 0x50000)
  else if 0x50100 ≤ off && off < 0x50200 then s.ephReg ((off - 0x50100) / 0x20) ((off - 0x50100) % 0x20)
  else if 0x60000 ≤ off && off < 0x60200 then
    (s.opt.ports.get .reset ((off - 0x60000) / 0x40)).reg ((off - 0x60000) % 0x40)
  else if off = 0x61000 then some (s.opt.role.toNat + s.opt.modnum.toNat * 2 ^ 16 + s.opt.chainid.toNat * 2 ^ 32)
  else if off = 0x61008 then some 0
  else if off = 0x61010 then some (s.opt.first.toNat + s.opt.count.toNat * 2 ^ 24)
  else if 0x62000 ≤ off && off < 0x62800 then
    let f := s.opt.fwd.get ⟨0, false⟩ ((off - 0x62000) / 8)
    some (f.port.toNat + b2n f.valid * 8)
  else if 0x70000 ≤ off && off < 0x70200 then s.bootNow.reg (off - 0x70000)
  else if off = 0x80000 then some s.safe.stat
  else if off = 0x80008 then some s.safe.period.toNat
  else if 0x81000 ≤ off && off < 0x85000 then
    some (((s.safe.log.get [] ((off - 0x81000) / 0x40)).getD ((off - 0x81000) % 0x40 / 8) 0)).toNat
  else if 0x90000 ≤ off && off < 0x90100 then s.trcReg (off - 0x90000)
  else if off = 0xA0000 then some s.govStat
  else if off = 0xA0010 then some s.modStat
  else none

/-- R26: whether a register lies at a hub offset that a pilot can name. -/
def State.hubRegExists (s : State) (off : Nat) : Bool := (s.hubRegRead none off).isSome

/-- R9, R31: RC fields that a read of the low or the high half clears. -/
def State.hubRegClear (s : State) (off : Nat) (low high : Bool) : State :=
  if 0x32000 ≤ off && off < 0x32800 && high then
    { s with hbm := s.hbm.updChan (BitVec.ofNat 8 ((off - 0x32000) / 8)) fun c => { c with cetot := 0 } }
  else if off = 0x40010 || off = 0x40110 then
    s.updPport (BitVec.ofNat 1 ((off - 0x40000) / 0x100)) fun x =>
      { x with wdrop := if low then 0 else x.wdrop, cdrop := if high then 0 else x.cdrop }
  else if 0x41000 ≤ off && off < 0x43000 && low then
    s.updQueue (BitVec.ofNat 10 ((off - 0x41000) / 8)) fun q => { q with stale := 0 }
  else if off = 0x50018 && low then { s with time := { s.time with steps := 0 } }
  else if 0x60000 ≤ off && off < 0x60200 then
    let p : LinkId := BitVec.ofNat 3 ((off - 0x60000) / 0x40)
    let upd (f : OptPort → OptPort) : State := { s with opt := { s.opt with ports := s.opt.ports.upd .reset p.toNat f } }
    if off % 0x40 = 0 then upd fun x => { x with replays := if high then 0 else x.replays }
    else if off % 0x40 = 8 then
      upd fun x =>
        { x with csym := if low then 0 else x.csym, ucw := if low then 0 else x.ucw, badpkt := if high then 0 else x.badpkt }
    else s
  else if off = 0x80000 && low then { s with safe := { s.safe with lost := 0 } }
  else if off = 0x90018 && high then { s with obs := { s.obs with drops := 0 } }
  else if off = 0xA0000 && high then { s with gov := { s.gov with stretched := 0 } }
  else s

end Sys2Proof.Machine
end

