-- ==== Sys2Proof/Machine/CmdHeader.lean ====
section
/-! DEFINITION. The header of a Maelly packet (R319, R323, R327 to R329), the dispatch entry that it names (R334), and where an accepted command
stands. -/

namespace Sys2Proof.Machine

/-! The header (R327). -/

/-- Doubleword `i` of a header. -/
def hdrDw (h : List Word64) (i : Nat) : Nat := (h.getD i 0).toNat

/-- R327: VERSION. -/
def hdrVersion (h : List Word64) : Nat := bits (hdrDw h 0) 0 8
/-- R327: OPCODE. -/
def hdrOpcode (h : List Word64) : Nat := bits (hdrDw h 0) 8 8
/-- R327: CLASS. -/
def hdrClass (h : List Word64) : Nat := bits (hdrDw h 0) 16 2
/-- R327: QUEUE. -/
def hdrQueue (h : List Word64) : Nat := bits (hdrDw h 0) 18 10
/-- R327: GEN. -/
def hdrGen (h : List Word64) : Nat := bits (hdrDw h 0) 32 8
/-- R328: DLV. -/
def hdrDlv (h : List Word64) : Bool := bit (hdrDw h 0) 48
/-- R328: SCHED. -/
def hdrSched (h : List Word64) : Bool := bit (hdrDw h 0) 49
/-- R328: IRQ. -/
def hdrIrq (h : List Word64) : Bool := bit (hdrDw h 0) 50
/-- R328: FENCE. -/
def hdrFence (h : List Word64) : Bool := bit (hdrDw h 0) 51
/-- R327: SEQ. -/
def hdrSeq (h : List Word64) : Nat := bits (hdrDw h 1) 0 32
/-- R327: DEADLINE. -/
def hdrDeadline (h : List Word64) : Nat := bits (hdrDw h 1) 32 32
/-- R327: KERNEL. -/
def hdrKernel (h : List Word64) : Nat := bits (hdrDw h 2) 0 16
/-- R327: RESTART. -/
def hdrRestart (h : List Word64) : Nat := bits (hdrDw h 2) 16 16
/-- R327: PLEN. -/
def hdrPlen (h : List Word64) : Nat := bits (hdrDw h 2) 32 32
/-- R327: CADDR. -/
def hdrCaddr (h : List Word64) : Nat := hdrDw h 3
/-- R327: START. -/
def hdrStart (h : List Word64) : Nat := bits (hdrDw h 5) 0 32
/-- R327: RLEN_MAX. -/
def hdrRlenMax (h : List Word64) : Nat := bits (hdrDw h 5) 32 32
/-- R327: CHECK. -/
def hdrCheck (h : List Word64) : Nat := bits (hdrDw h 7) 0 32

/-- R323: ring bytes of a payload, with its padding. -/
def paddedLen (plen : Nat) : Nat := (plen + 63) / 64 * 64

/-- R327: whether a reserved bit of a header is set. -/
def hdrReserved (h : List Word64) : Bool :=
  bits (hdrDw h 0) 28 4 != 0 || bits (hdrDw h 0) 40 8 != 0 || bits (hdrDw h 0) 52 12 != 0 || bits (hdrDw h 7) 32 32 != 0

/-- R327, R30: whether CADDR may be written. -/
def hdrCaddrOk (h : List Word64) : Bool := hdrCaddr h % 32 == 0 && hdrCaddr h + 32 + hdrRlenMax h ≤ 2 ^ 44

/-- R319: whether a header uses a feature that its version lacks. -/
def hdrFeatureBad (h : List Word64) : Bool :=
  let v := hdrVersion h
  let old := v < 0x30
  (old && (hdrClass h != 2 || !(hdrOpcode h == 1 || hdrOpcode h == 2) || hdrDlv h || hdrDeadline h != 0 || hdrRestart h != 0))
    || (v < 0x31 && (hdrSched h || hdrStart h != 0)) || (v < 0x32 && hdrFence h)

/-- R333: check 6. -/
def hdrBad (h : List Word64) (q : QueueId) : Bool :=
  hdrQueue h != q.toNat || hdrReserved h || !hdrCaddrOk h || (hdrClass h == 1 && !hdrDlv h) || hdrFeatureBad h

/-- R329: whether an opcode may be sent in a class. -/
def opcodeOk (op cls : Nat) : Bool :=
  if op = 1 then cls = 1 || cls = 2
  else if op = 2 then cls ≤ 2
  else 0x10 ≤ op && op ≤ 0x15 && cls == 0

/-! The dispatch table (R334). -/

/-- R334: the dispatch entry of kernel `k`, if it is valid. -/
def Disp.entry (d : Disp) (k : Nat) : Option (List Word64) :=
  if k < d.len then
    let e := d.table.get [] k
    if bit (hdrDw e 0) 0 then some e else none
  else none

/-- R334: GROUP of an entry. -/
def entryGroup (e : List Word64) : Nat := bits (hdrDw e 0) 4 7

/-- R334: bytes of an entry's slots. -/
def entrySlot (e : List Word64) : Nat := (bits (hdrDw e 2) 32 4 + 1) * 0x10000

/-! Queues and accepted commands. -/

/-- The port that owns a queue. -/
def Queue.port (q : Queue) : Option PortId := if q.owner.toNat < 2 then some (BitVec.ofNat 1 q.owner.toNat) else none

/-- R334: the dispatch entry that a command names. -/
def State.entryOf (s : State) (c : Cmd) : List Word64 := (s.disp.entry (hdrKernel c.hdr)).getD []

/-- The number of the group that a RUN names. -/
def State.groupNo (s : State) (c : Cmd) : Nat := entryGroup (s.entryOf c)

/-- Whether a command is a RUN. -/
def Cmd.isRun (c : Cmd) : Bool := hdrOpcode c.hdr == 1

/-- R342, R436, R455, R476: whether every member of a command has ended; one that was not sent is over when its
cell was reset, a failure has touched it, or it is a control command that has run. -/
def Cmd.over (c : Cmd) : Bool :=
  if c.stage == .sent then c.members.all fun m => (c.ended.any fun e => e.1 == m) || c.resets.any (· == m)
  else !c.resets.isEmpty || c.touched.isSome || c.answer.isSome

/-- R39: rings that stand at cell `g`, or are on their way to it, or wait to be sent to it. -/
def State.ringsAt (s : State) (g : CellId) : Nat :=
  (s.cell g).rings.length + (s.disp.flying.filter fun x => x.cell == g).length
    + (s.disp.cmds.filter fun c => c.later.any (· == g)).length

/-- R328, R337: whether SCHED or FENCE holds a command back. -/
def Disp.flagHeld (d : Disp) (c : Cmd) : Bool :=
  (c.start.isSome && !c.released) || (hdrFence c.hdr && d.cmds.any fun x => x.queue == c.queue && x.id < c.id)

end Sys2Proof.Machine
end

