-- ==== Sys2Proof/Machine/IntFns.lean ====
section
/-! DEFINITION. The results of the pilot's integer, bit-field and parsing functions (R165 to R167, R180 to R182), as functions of operand
values. -/

namespace Sys2Proof.Machine

/-! Integer functions (R165, R166), at any width. -/

/-- Signed smaller. -/
def sminBv {n : Nat} (a b : BitVec n) : BitVec n := if a.slt b then a else b

/-- Signed larger. -/
def smaxBv {n : Nat} (a b : BitVec n) : BitVec n := if a.slt b then b else a

/-- Unsigned smaller. -/
def uminBv {n : Nat} (a b : BitVec n) : BitVec n := if a.ult b then a else b

/-- Unsigned larger. -/
def umaxBv {n : Nat} (a b : BitVec n) : BitVec n := if a.ult b then b else a

/-- 1 or 0. -/
def boolBv (n : Nat) (c : Bool) : BitVec n := if c then 1#n else 0#n

/-- R166: signed quotient, truncated toward zero; all ones for a zero divisor; the most negative value by −1 keeps it. -/
def divS {n : Nat} (a b : BitVec n) : BitVec n := if b = 0#n then BitVec.allOnes n else BitVec.ofInt n (a.toInt.tdiv b.toInt)

/-- R166: unsigned quotient. -/
def divU {n : Nat} (a b : BitVec n) : BitVec n := if b = 0#n then BitVec.allOnes n else BitVec.ofNat n (a.toNat / b.toNat)

/-- R166: signed remainder, with the sign of a; a for a zero divisor. -/
def remS {n : Nat} (a b : BitVec n) : BitVec n := if b = 0#n then a else BitVec.ofInt n (a.toInt.tmod b.toInt)

/-- R166: unsigned remainder. -/
def remU {n : Nat} (a b : BitVec n) : BitVec n := if b = 0#n then a else BitVec.ofNat n (a.toNat % b.toNat)

/-- R165: shift amounts are taken modulo the width. -/
def shAmt {n : Nat} (b : BitVec n) : Nat := b.toNat % n

/-- R165: OPRW functions on the low halves, and whether the code is reserved. -/
def oprwFn (op : Nat) (a b : BitVec 32) : Option (BitVec 32) :=
  match op with
  | 0x00 => some (a + b)
  | 0x01 => some (a - b)
  | 0x02 => some (a &&& b)
  | 0x03 => some (a ||| b)
  | 0x04 => some (a ^^^ b)
  | 0x05 => some (a &&& ~~~b)
  | 0x06 => some (a <<< shAmt b)
  | 0x07 => some (a >>> shAmt b)
  | 0x08 => some (a.sshiftRight (shAmt b))
  | 0x09 => some (boolBv 32 (a.slt b))
  | 0x0A => some (boolBv 32 (a.ult b))
  | 0x10 => some (a * b)
  | 0x14 => some (divS a b)
  | 0x15 => some (divU a b)
  | 0x16 => some (remS a b)
  | 0x17 => some (remU a b)
  | _ => none

/-- R207: whether an OPRW code is a divide. -/
def oprwDivides (op : Nat) : Bool := 0x14 ≤ op && op ≤ 0x17

/-- R207: result latency of an OPRW function. -/
def oprwLat (op : Nat) : Nat := if oprwDivides op then 18 else if op = 0x10 then 3 else 1

/-- Low half of a register. -/
def lowW (v : Word64) : BitVec 32 := v.setWidth 32

/-- R165: a 32-bit result, sign-extended. -/
def sextW (v : BitVec 32) : Word64 := v.signExtend 64

/-- R167: sext(imm16). -/
def sextI (i : BitVec 16) : Word64 := i.signExtend 64

/-- R167: zext(imm16). -/
def zextI (i : BitVec 16) : Word64 := i.setWidth 64

/-! MOVI (R167). -/

/-- CSET: the placed halfword, zeros below, its sign above. -/
def csetVal (hw : Nat) (i : BitVec 16) : Word64 := sextI i <<< (16 * hw)

/-- CINS: one halfword replaced. -/
def cinsVal (v : Word64) (hw : Nat) (i : BitVec 16) : Word64 :=
  (v &&& ~~~(zextI 0xFFFF <<< (16 * hw))) ||| (zextI i <<< (16 * hw))

/-- CREP: the halfword four times. -/
def crepVal (i : BitVec 16) : Word64 := i ++ i ++ i ++ i

/-! Bit fields (R180, R181). -/

/-- `len` ones. -/
def ones (len : Nat) : Word64 := w64 (2 ^ len - 1)

/-- R180: the field, zero-extended; bits past 63 read as 0. -/
def bfxVal (v : Word64) (pos len : Nat) : Word64 := (v >>> pos) &&& ones len

/-- R180: the field, sign-extended from its bit len − 1. -/
def bfxsVal (v : Word64) (pos len : Nat) : Word64 :=
  let x := bfxVal v pos len
  if x.getLsbD (len - 1) then x ||| ~~~(ones len) else x

/-- R180: the field of `d` replaced by the low bits of `a`; bits past 63 are discarded. -/
def bfiVal (d a : Word64) (pos len : Nat) : Word64 :=
  (d &&& ~~~(ones len <<< pos)) ||| ((a &&& ones len) <<< pos)

/-- R181: pos and len of the variable forms. -/
def varPos (b : Word64) : Nat := bits b.toNat 0 6

/-- R181. -/
def varLen (b : Word64) : Nat := bits b.toNat 8 6 + 1

/-! Counting and permuting (R180, R182). -/

/-- Bits needed to write a number. -/
def bitLen (n : Nat) : Nat := if n = 0 then 0 else Nat.log2 n + 1

/-- Leading zeros of the low `w` bits. -/
def clzN (w v : Nat) : Nat := w - bitLen (v % 2 ^ w)

/-- Trailing zeros below bit `w`. -/
def ctzN (w v : Nat) : Nat := ((List.range w).find? fun i => bit v i).getD w

/-- Set bits below bit `w`. -/
def popcN (w v : Nat) : Nat := ((List.range w).filter fun i => bit v i).length

/-- Number from bytes, byte 0 lowest. -/
def ofBytes (n : Nat) (f : Nat → Nat) : Nat := ((List.range n).map fun i => f i % 256 * 2 ^ (8 * i)).sum

/-- R182: byte permutation of `a` by nibbles of `b`. -/
def bpermVal (a b : Word64) : Word64 :=
  w64 (ofBytes 8 fun i =>
    let n := bits b.toNat (4 * i) 4
    if 8 ≤ n then 0 else bits a.toNat (8 * n) 8)

/-- R180: the low `n` bytes reversed, zeros above. -/
def bswapN (n : Nat) (a : Word64) : Word64 := w64 (ofBytes n fun i => bits a.toNat (8 * (n - 1 - i)) 8)

end Sys2Proof.Machine
end

