-- ==== Sys2Proof/Machine/Except.lean ====
section
/-! DEFINITION. Taking an exception and returning from one (R223 to R250): causes, vectors, frames, the double and the triple
fault, gates, RETX, chaining. What begins in an issue cc goes on by itself, each step at the end of its cc (`Cell.seqStep`). -/

namespace Sys2Proof.Machine

/-- R223: codes. -/
def xIllegal : Nat := 0x01
/-- R223. -/
def xPriv : Nat := 0x02
/-- R223. -/
def xAccess : Nat := 0x03
/-- R223. -/
def xFetch : Nat := 0x04
/-- R223. -/
def xAdesc : Nat := 0x05
/-- R223. -/
def xVwait : Nat := 0x06
/-- R223. -/
def xGateBad : Nat := 0x07
/-- R223. -/
def xGateArg : Nat := 0x08
/-- R223. -/
def xPrivReturn : Nat := 0x09
/-- R223. -/
def xGateCall : Nat := 0x10
/-- R223. -/
def xMchk : Nat := 0x20
/-- R223. -/
def xHubreq : Nat := 0x21
/-- R223. -/
def xPabort : Nat := 0x22
/-- R223. -/
def xMbox : Nat := 0x23
/-- R223. -/
def xDouble : Nat := 0x3F

/-- R223: whether a code is an interrupt. -/
def isInterrupt (code : Nat) : Bool := 0x20 ≤ code && code ≤ 0x23

/-- R229: the cause word. -/
def Trap.word (t : Trap) : Word64 :=
  w64 (t.code + b2n (!isInterrupt t.code) * 2 ^ 8 + b2n t.wr * 2 ^ 9 + b2n t.half * 2 ^ 10 + t.info * 2 ^ 16
    + t.insn.toNat * 2 ^ 32)

/-- R226: codes that may be delegated. -/
def delegable (code : Nat) : Bool := code == 1 || code == 3 || code == 4 || code == 5 || code == 6

/-- R226: whether a trap is delegated. -/
def Exc.delegated (e : Exc) (code : Nat) : Bool := !e.pl && delegable code && bit e.deleg.toNat code

/-- R230: whether a push onto stack pointer `x` is valid. -/
def pushValid (x : Word64) : Bool := x.toNat % 8 == 0 && 48 ≤ x.toNat && x.toNat ≤ 0x3F000

/-- R225: the address of a vector in the table at offset `base` (units of 1 KiB). -/
def vectorAddr (base : Byte) (code : Nat) : Word64 := w64 (winBase + base.toNat * 0x400 + 16 * code)

/-- R219: first cc in which every earlier store into the window is visible. -/
def Cell.windowSettled (c : Cell) (now : Nat) : Nat :=
  c.stores.foldl (fun a p => if p.store == .window then max a (p.vis + 1) else a) now

/-- R244, R455, R439: the cell enters reset, with the reason code; a reset already running takes the request in. The pilot
stops, and every outstanding pass is discarded with no record in ARR_ABORT (R115). The arbiter's admission (CELL_RESET) does the rest. -/
def Cell.enterReset (c : Cell) (code : Byte) : Cell :=
  match c.id.inReset with
  | some _ => c
  | none => { c with id := { c.id with inReset := some code }, pil := { c.pil with mode := .idle, rep := none, micros := [], seq := none },
                     trc := c.trc.quiet, arr := { c.arr with passes := [], pop := none, folds := [] } }

/-- R228, R232: doubleword k of a frame at `f` is written in cc 3 + k of an entry whose cycle 0 is cc `c0`. -/
def frameStores (f c0 : Nat) (dws : List Word64) : List PendStore :=
  (List.range dws.length).map fun k =>
    { by' := .pilot, store := .localStore, off := f + 8 * k, bytes := leBytes (dws.getD k 0).toNat 8, vis := c0 + 3 + k, since := c0 }

/-- R228: the six doublewords of a frame. -/
def frameDws (rpc stat cause addr sp link : Word64) : List Word64 := [rpc, stat, cause, addr, sp, link]

/-- Whether a result is that of s register `r`. -/
def PilotWb.ofS (w : PilotWb) (r : BitVec 5) : Bool := !w.wide && w.reg == r && !w.bad

/-- R228: s register `r` as an entry saves it: with the last of the results that are on their way to it (log 49). -/
def Pilot.coming (p : Pilot) (r : BitVec 5) : Word64 :=
  match (sortBy PilotWb.due (p.wbs.filter fun w => w.ofS r)).getLast? with
  | some w => w.val.setWidth 64
  | none => p.readS r

/-- R232: s2 := F at the end of cc `due`; what is on its way to s2 is saved in the frame, or dropped (log 49). -/
def Pilot.newStack (p : Pilot) (f : Word64) (due : Nat) : Pilot :=
  { p with
    wbs := (p.wbs.filter fun w => !w.ofS 2) ++ [{ wide := false, reg := 2, val := f.setWidth 128, due := due, bad := false, load := false }]
    micros := p.micros.map fun m => { m with dests := m.dests.filter (· != 2) }
    remotes := p.remotes.map fun x => if x.dest.any fun d => !d.wide && d.reg == 2 then { x with dest := none } else x }

/-- Write a frame (R228), with s2 set to its address. A unit there that holds an uncorrectable error resets the cell with reason `code`
(R440, R244; log 48). -/
def Cell.pushFrame (c : Cell) (f c0 : Nat) (dws : List Word64) (code : Byte) : Cell :=
  if c.ls.anyBad sramUnit f (8 * dws.length) then c.enterReset code
  else { c with stores := c.stores ++ frameStores f c0 dws, pil := c.pil.newStack (w64 f) (c0 + 8) }

/-- R248: an interrupt's entry ends the watchdog's count for it. -/
def Cell.entered (c : Cell) (code : Nat) : Cell := { c with id := { c.id with dog := c.id.dog.erase code } }

/-- R232, R226: entry cc 1: the cause, the levels and the interrupt enables. -/
def Exc.enter (e : Exc) (t : Trap) (stay : Bool) : Exc :=
  { e with cause := t.word, addr := t.addr, pim := e.im, guardEnd := none, pl := !stay, ceil := !stay, im := !stay,
           mchk := e.mchk && t.code != xMchk, hubreq := e.hubreq && t.code != xHubreq,
           pabort := e.pabort && t.code != xPabort, mbox := e.mbox && t.code != xMbox }

/-- R241: the cause of a double fault. -/
def Trap.double (t : Trap) : Trap := { t with code := xDouble, info := t.code }

/-- R241: what a double fault sets in entry cc 2. -/
def Exc.double (e : Exc) (t : Trap) (x : Word64) : Exc :=
  { e with pl := true, ceil := true, im := true, cause := t.double.word, dfOrig := BitVec.ofNat 8 t.code, indf := true, dfsp := x }

/-- Set what an entry or return under way does next. -/
def Cell.setSeq (c : Cell) (q : Option PilSeq) : Cell := { c with pil := { c.pil with seq := q } }

/-- R232, R219: the handler's first word is fetched from the line read in cc 8, or later where a store into the window comes first; it issues
6 cc after that. -/
def Cell.toLine (c : Cell) (q : PilSeq) (pc : Word64) : Cell :=
  { c with pil := { c.pil with pc := pc, seq := some { q with step := .line, at' := max (q.at' + 7) q.settled } } }

/-- R228, R232, R236, R241: the end of entry cc 1 of entry `q`: the cause and the levels, the choice and check of the stack, and the frame,
written from cc 3 on. A push that is not valid makes it a double fault, and a gate's s1 then stays as it is (log 66). -/
def Cell.enterStep (c : Cell) (q : PilSeq) (t : Trap) (stay : Bool) (gate : Option (Word64 × Word64)) : Cell :=
  let c0 := q.at' - 1
  let e := c.exc
  let x := if stay || e.pl then c.pil.coming 2 else e.ssp
  let dws (cause : Word64) : List Word64 := frameDws t.rpc (w64 e.stat) cause t.addr (c.pil.coming 2) (c.pil.coming 1)
  let c1 : Cell := { c.entered t.code with exc := e.enter t stay }
  if pushValid x then
    let pc := match gate with | some (a, _) => a | none => vectorAddr (if stay then e.ub else e.vb) t.code
    let c2 := c1.toLine q pc
    let c3 : Cell := match gate with | some (_, link) => { c2 with pil := c2.pil.writeS 1 link } | none => c2
    c3.pushFrame (x.toNat - 48) c0 (dws t.word) 4
  else
    let c2 := (c1.toLine q (vectorAddr e.vb xDouble)).setSeq (some { q with step := .double t x, at' := c0 + 2 })
    if e.indf then c2 else c2.pushFrame 0x3FFD0 c0 (dws t.double.word) 1

/-- R458, R459: an entry, a gate or a return runs from cc `a` to before cc `b`. -/
def Cell.entering (c : Cell) (a b : Nat) : Cell := (c.engine 0 0 0).span 0 a b 6

/-- R244: whether a trap is a fault. -/
def isFault (code : Nat) : Bool := !isInterrupt code && code != xGateCall

/-- R232: an entry with its cycle 0 in cc `c0` begins; the handler's first instruction issues at `c0` + 14, later where it waits for a store
into the window (R219). A fault while INDF is 1 is a triple fault (R244). -/
def Cell.startEntry (c : Cell) (t : Trap) (stay : Bool) (gate : Option (Word64 × Word64)) (c0 : Nat) : Cell :=
  if isFault t.code && c.exc.indf then c.enterReset 1
  else
    let settled := c.windowSettled c0
    let next := max (c0 + 14) (settled + 6)
    let c1 := (c.entering c0 next).engine 1 0 0
    { c1 with vec := { c.vec with feedStall := none },
              pil := { c.pil with rep := none, next := next, nextWhy := 6,
                                  seq := some { step := .enter t stay gate, at' := c0 + 1, insn := t.insn, since := c0, settled := settled } } }

/-- R225, R226, R232: take an exception, a fault or an interrupt, with its cycle 0 in cc `c0`. -/
def Cell.trap (c : Cell) (t : Trap) (c0 : Nat) : Cell := c.startEntry t (c.exc.delegated t.code) none c0

/-- R225, R232: cell `g` takes an exception, with cycle 0 in this cc. -/
def State.takeTrap (s : State) (g : CellId) (t : Trap) : State := s.updCell g fun c => c.trap t s.clk.cc

/-- R440: a vector line with an uncorrectable error resets the cell; what the code can correct it corrects (R253). -/
def Cell.lineStep (c : Cell) : Cell :=
  let o := c.pil.pc.toNat - winBase
  if c.win.anyBad sramUnit o 16 then c.enterReset 4 else { c.setSeq none with win := c.win.correct sramUnit o 16 }

/-- R224: the pending enabled interrupt of the lowest code. -/
def Exc.pendingCode (e : Exc) : Option Nat :=
  if e.mchk then some xMchk
  else if e.hubreq then some xHubreq
  else if e.pabort then some xPabort
  else if e.mbox && e.ienMbox then some xMbox
  else none

/-- R246: whether a guard window is open in cc `now`. -/
def Exc.guarded (e : Exc) (now : Nat) : Bool :=
  match e.guardEnd with
  | some l => decide (now ≤ l)
  | none => false

/-- R224, R243, R246: the interrupt to be taken at a boundary in cc `now`. -/
def Exc.takeable (e : Exc) (now : Nat) : Option Nat :=
  if e.im || e.indf || e.guarded now then none else e.pendingCode

/-- The trap of an interrupt taken before the instruction at `rpc` issues. -/
def interruptTrap (code : Nat) (rpc : Word64) : Trap :=
  { code := code, wr := false, half := false, info := 0, insn := 0, addr := 0, rpc := rpc }

/-! Gates (R233 to R237). -/

/-- R233: window offset of gate `n`'s descriptor. -/
def Exc.gateOff (e : Exc) (n : Nat) : Nat := e.gb.toNat * 16 + 16 * n

/-- R235: whether `l` bytes from `b` lie in local store below the refuge region. -/
def inLocal (b l : Nat) : Bool := b + l ≤ 0x3F000

/-- R235: whether `l` bytes from `b` lie in the populated part of cell `g`'s slice. -/
def inSlice (g : CellId) (b l : Nat) : Bool := sliceAddr g 0 ≤ b && b + l ≤ sliceAddr g 0xC000000

/-- R233: kinds that are reserved. -/
def gateKindBad (chk : Nat) : Bool := 5 ≤ bits chk 10 3

/-- R233, R235: one check word against the registers. -/
def gateCheck (g : CellId) (p : Pilot) (chk : Nat) : Bool :=
  let b := (p.readS (BitVec.ofNat 5 (bits chk 0 5))).toNat
  let l := (p.readS (BitVec.ofNat 5 (bits chk 5 5))).toNat
  let kind := bits chk 10 3
  let lim := bits chk 16 16
  if kind = 0 then true
  else if kind = 4 then decide (b ≤ lim)
  else if l = 0 then true
  else
    b + l ≤ 2 ^ 64 && (l ≤ lim * 64 || lim == 0) &&
      (((kind = 1 || kind = 3) && inLocal b l) || ((kind = 2 || kind = 3) && inSlice g b l))

/-- R234: whether gate `n` with descriptor doublewords `d0` and `d1` cannot be used. -/
def Exc.gateBad (e : Exc) (n d0 d1 : Nat) : Bool :=
  e.gcount.toNat ≤ n || 0x40000 < e.gateOff n + 16 || !bit d0 18 || bits d0 0 2 != 0 || bits d0 20 44 != 0
    || bits d1 13 3 != 0 || bits d1 45 3 != 0 || gateKindBad (bits d1 0 32) || gateKindBad (bits d1 32 32)

/-- The trap of a gate or a return: `info` is a gate's, `addr` a return's. -/
def Cell.ownTrap (c : Cell) (code info : Nat) (addr : Word64) (insn : Word32) : Trap :=
  { code := code, wr := false, half := false, info := info, insn := insn, addr := addr, rpc := c.pil.pc }

/-- R234 to R237: GATE n issues in cc `now`: its descriptor is read in cc 1 and 2. -/
def Cell.gate (c : Cell) (n : Nat) (insn : Word32) (now : Nat) : Cell :=
  let o := c.exc.gateOff n
  let read (k : Nat) : LoadRead := { cc := now + 1 + k, src := .own .window (o + 8 * k) 8, addr := winBase + o + 8 * k }
  let q : PilSeq :=
    { step := .gate n, at' := now + 2, insn := insn, since := now, settled := 0,
      reads := if n < c.exc.gcount.toNat && o + 16 ≤ 0x40000 then [read 0, read 1] else [] }
  { c.entering (now + 1) (now + 16) with pil := { c.pil with seq := some q, next := now + 16, nextWhy := 6 } }

/-- R234 to R237: the end of the gate's cc 2: it cannot be used, a check fails, or its entry begins, with this cc as its cycle 0. -/
def Cell.gateStep (c : Cell) (g : CellId) (q : PilSeq) (n : Nat) : Cell :=
  let d0 := leNat (q.got.take 8)
  let d1 := leNat (q.got.drop 8)
  let bad (code info : Nat) : Cell := c.trap (c.ownTrap code info 0 q.insn) q.at'
  if q.bad then c.enterReset 4
  else if c.exc.gateBad n d0 d1 then bad xGateBad n
  else if !gateCheck g c.pil (bits d1 0 32) then bad xGateArg 0
  else if !gateCheck g c.pil (bits d1 32 32) then bad xGateArg 1
  else
    let link := c.pil.pc + 4
    c.startEntry { c.ownTrap xGateCall n 0 q.insn with rpc := link } (!c.exc.pl && !bit d0 19)
      (some (w64 (winBase + bits d0 2 16 * 4), link)) q.at'

/-! Return (R238 to R240, R249). -/

/-- R228, R232, R293: a chained entry comes after the writes of status and exception registers that its pilot has issued. -/
def Cell.landExc (c : Cell) : Cell :=
  let own (p : PendReg) : Bool := !p.outer && decide (0x0A00 ≤ p.off) && decide (p.off < 0x0A60)
  { c with exc := (c.regs.filter own).foldl (fun e p => e.regWrite p.off p.val) c.exc, regs := c.regs.filter fun p => !own p }

/-- R249: a chained return: the pending interrupt is entered with no frame read or written; its vector line is read from cc 0 on. -/
def Cell.chain (c : Cell) (code : Nat) (insn : Word32) (now : Nat) : Cell :=
  let settled := c.windowSettled now
  let t : Trap := { code := code, wr := false, half := false, info := 0, insn := 0, addr := 0, rpc := 0 }
  let c := c.landExc.entered code
  let e := c.exc
  let e1 : Exc :=
    { e with cause := t.word, addr := 0, pl := true, ceil := true, im := true,
             mchk := e.mchk && code != xMchk, hubreq := e.hubreq && code != xHubreq,
             pabort := e.pabort && code != xPabort, mbox := e.mbox && code != xMbox }
  let q : PilSeq := { step := .line, at' := max now settled, insn := insn, since := now, settled := settled }
  let next := max now settled + 6
  { c.entering (now + 1) next with exc := e1, pil := { c.pil with pc := vectorAddr e.vb code, next := next, nextWhy := 6, seq := some q } }

/-- R239: restore from a frame that is accepted; a restored PL of 0 forces IM to 0 (R222). -/
def Cell.popFrame (c : Cell) (dw : Nat → Nat) : Cell :=
  let st := dw 1
  let pl := bit st 0
  let e : Exc := { c.exc with pl := pl, ceil := bit st 1, im := bit st 2 && pl, pim := bit st 3 }
  let p := (c.pil.writeS 2 (w64 (dw 4))).writeS 1 (w64 (dw 5))
  { c with exc := e, pil := { p with pc := w64 (dw 0), seq := none } }

/-- R239, R240: the end of a return's cc 7: the frame is accepted and restores, or it is refused, with this cc as the entry's cycle 0. -/
def Cell.popStep (c : Cell) (q : PilSeq) (f : Nat) : Cell :=
  let dw (k : Nat) : Nat := leNat ((q.got.drop (8 * k)).take 8)
  if q.bad then c.enterReset 4
  else if c.exc.ceil || (!bit (dw 1) 0 && !bit (dw 1) 1) then c.popFrame dw
  else c.trap (c.ownTrap xPrivReturn 0 (w64 f) q.insn) q.at'

/-- R239: an access to an accepted place of the frame: its six doublewords are read in cc 1 to 6. -/
def Cell.startPop (c : Cell) (f : Nat) (insn : Word32) (now : Nat) : Cell :=
  let settled := c.windowSettled now
  let q : PilSeq :=
    { step := .pop f, at' := now + 7, insn := insn, since := now, settled := settled,
      reads := (List.range 6).map fun k => { cc := now + 1 + k, src := .own .localStore (f + 8 * k) 8, addr := f + 8 * k } }
  let next := max (now + 13) (settled + 6)
  { c.entering (now + 1) next with pil := { c.pil with seq := some q, next := next, nextWhy := 6 } }

/-- R238 to R240, R249: RETX issues in cc `now`. -/
def Cell.retx (c : Cell) (insn : Word32) (now : Nat) : Cell :=
  let e := c.exc
  let s2 := c.pil.readS 2
  match (if e.ceil && !e.pim && !e.guarded now && !e.indf then e.pendingCode else none) with
  | some code => c.chain code insn now
  | none =>
    if !e.pl && s2.toNat < 0x40000 && 0x3F000 < s2.toNat + 48 then c.trap (c.ownTrap xPriv 0 s2 insn) now
    else if s2.toNat % 8 ≠ 0 || 0x40000 < s2.toNat + 48 then c.trap (c.ownTrap xAccess 0 s2 insn) now
    else c.startPop s2.toNat insn now

/-! The course of an entry or a return in time. -/

/-- The step that ends before cc `t`. -/
def Cell.seqStep (c : Cell) (g : CellId) (t : Nat) : Cell :=
  match c.pil.seq with
  | none => c
  | some q =>
    if t ≤ q.at' then c
    else
      match q.step with
      | .enter x stay gate => c.enterStep q x stay gate
      | .double x sp =>
        if c.exc.indf then c.enterReset 1
        else { c.setSeq (some { q with step := .line, at' := max (q.at' + 6) q.settled }) with exc := c.exc.double x sp }
      | .line => c.lineStep
      | .gate n => c.gateStep g q n
      | .pop f => c.popStep q f

end Sys2Proof.Machine
end

