-- ==== Sys2Proof/Machine/MicroOps.lean ====
section
/-! DEFINITION. Micro-ops of custom instructions (R194 to R197, R199): operands, values, and what runs on once a load has brought its
bytes. -/

namespace Sys2Proof.Machine

/-- R195: the register that an operand code names. -/
def microReg (f : CFmt) (code : Nat) : Option (BitVec 5) :=
  if code = 8 then some f.rd else if code = 9 then some f.ra else if code = 10 then some f.rb
  else if code = 12 then some 3 else if code = 13 then some 4 else if code = 14 then some 5 else none

/-- R194: IMM, sign-extended. -/
def microImm (u : Nat) : Word64 := (BitVec.ofNat 32 u).signExtend 64

/-- R195, R197: an operand's value: registers as they stood at the beginning. -/
def microSrc (regs : List (BitVec 5 × Word64)) (f : CFmt) (t : Tbl Word64) (u code : Nat) : Word64 :=
  if code < 8 then t.get 0 code
  else if code = 11 then f.imm.setWidth 64
  else if code = 15 then microImm u
  else match microReg f code with | some r => (regs.lookup r).getD 0 | none => 0

/-- R196: the value of a micro-op that is no memory access. -/
def microVal (op : Nat) (a b d : Word64) (pos len : Nat) : Word64 :=
  if op = 0x00 then a
  else if op = 0x01 then a + b
  else if op = 0x02 then a - b
  else if op = 0x03 then a &&& b
  else if op = 0x04 then a ||| b
  else if op = 0x05 then a ^^^ b
  else if op = 0x06 then a &&& ~~~b
  else if op = 0x08 then a <<< shAmt b
  else if op = 0x09 then a >>> shAmt b
  else if op = 0x0A then a.sshiftRight (shAmt b)
  else if op = 0x0B then a.rotateRight (shAmt b)
  else if op = 0x0C then a <<< pos
  else if op = 0x0D then a >>> pos
  else if op = 0x0E then a.sshiftRight pos
  else if op = 0x10 then bfxVal a pos len
  else if op = 0x11 then bfxsVal a pos len
  else if op = 0x12 then bfiVal b a pos len
  else if op = 0x14 then w64 (clzN 64 a.toNat)
  else if op = 0x15 then w64 (ctzN 64 a.toNat)
  else if op = 0x16 then w64 (popcN 64 a.toNat)
  else if op = 0x17 then bpermVal a b
  else if op = 0x18 then bswapN 8 a
  else if op = 0x1C then boolBv 64 (a == b)
  else if op = 0x1D then boolBv 64 (a.slt b)
  else if op = 0x1E then boolBv 64 (a.ult b)
  else if op = 0x1F then if d ≠ 0 then a else b
  else a * b

/-- R195, R197: write a destination: a temporary, or a register at the commit. -/
def MicroRun.put (m : MicroRun) (code : Nat) (v : Word64) : MicroRun :=
  if code < 8 then { m with t := m.t.set code v }
  else match microReg m.f code with | some r => { m with writes := m.writes ++ [(r, v)] } | none => m

/-- Whether a micro-op is a memory access. -/
def microMem (u : Nat) : Bool := 0x30 ≤ bits u 56 6

/-- R196: one micro-op that is no memory access. -/
def MicroRun.step (m : MicroRun) (u : Nat) : MicroRun :=
  let src := microSrc m.regs m.f m.t u
  m.put (bits u 52 4)
    (microVal (bits u 56 6) (src (bits u 48 4)) (src (bits u 44 4)) (src (bits u 52 4)) (bits u 38 6) (bits u 32 6 + 1))

/-- Micro-ops that are no memory accesses. -/
def MicroRun.steps (m : MicroRun) (us : List Nat) : MicroRun := us.foldl MicroRun.step m

/-- R196, R199: the load has brought value `v`: the micro-ops behind it run. -/
def MicroRun.resume (m : MicroRun) (v : Nat) : MicroRun := ((m.put m.dst (w64 v)).steps (m.rest.map BitVec.toNat))

/-- R199, R440: a custom instruction's results, which land together at the end of cc `due`; where its load met an uncorrectable error,
nothing is written and a machine check follows. -/
def MicroRun.results (m : MicroRun) (due : Nat) : List PilotWb :=
  if m.bad then [{ wide := false, reg := 0, val := 0, due := due, bad := true, load := true }]
  else (m.writes.filter fun w => w.1 != 0 && m.dests.contains w.1).map fun w =>
    { wide := false, reg := w.1, val := w.2.setWidth 128, due := due, bad := false, load := true }

end Sys2Proof.Machine
end

