-- ==== Sys2Proof/Machine/OptOps.lean ====
section
/-! DEFINITION. Packets and frames of the optical ports (R120, R121, R382 to R387): how a packet's flits spell its fields, and
how a port sends what waits. -/

namespace Sys2Proof.Machine

/-- Port `p`. -/
def Optics.port (o : Optics) (p : LinkId) : OptPort := o.ports.get .reset p.toNat

/-- Change port `p`. -/
def State.updPort (s : State) (p : LinkId) (f : OptPort → OptPort) : State :=
  { s with opt := { s.opt with ports := s.opt.ports.upd .reset p.toNat f } }

/-- A flit from a number. -/
def flitOf (n : Nat) : FlitBits := BitVec.ofNat 512 n

/-- Values of `w` bits packed into flits, the last padded with zeros (R121). `k` flits. -/
def packFlits (w : Nat) (vs : List Nat) (k : Nat) : List FlitBits :=
  (List.range k).map fun j =>
    let per := 512 / w
    flitOf ((List.range per).map fun i => (vs.getD (j * per + i) 0) % 2 ^ w * 2 ^ (w * i)).sum

/-- The first `n` values of `w` bits of a run of flits. -/
def unpackFlits (w : Nat) (fs : List FlitBits) (n : Nat) : List Nat :=
  (List.range n).map fun i =>
    let per := 512 / w
    bits ((fs.getD (i / per) 0).toNat) (w * (i % per)) w

/-- R120: value width of an orbit packet's KIND. -/
def orbitWidth (kind : Nat) : Nat := if kind = 1 then 64 else 32

/-- Set bits among the low four. -/
def popc4 (v : Nat) : Nat := b2n (bit v 0) + b2n (bit v 1) + b2n (bit v 2) + b2n (bit v 3)

/-- R121, R155: values an orbit header announces: rows times columns, or N where ROWS is 0. -/
def orbitCount (rows n : Nat) : Nat :=
  let r := popc4 rows
  if r = 0 then n else r * n

/-- R120: the header flit of an orbit packet. -/
def OrbitPkt.header (p : OrbitPkt) : Nat :=
  p.kind.toNat + p.srcg.toNat * 2 ^ 8 + p.dstg.toNat * 2 ^ 16 + p.tag.toNat * 2 ^ 24 + p.pidx.toNat * 2 ^ 40
    + p.hop.toNat * 2 ^ 56 + p.rg.toNat * 2 ^ 64 + p.rows.toNat * 2 ^ 70 + p.n.toNat * 2 ^ 74 + b2n p.lastRg * 2 ^ 81
    + p.srcMod.toNat * 2 ^ 96

/-- R120, R121: an orbit packet as flits. -/
def OrbitPkt.pack (p : OrbitPkt) : OptPkt :=
  let w := orbitWidth p.kind.toNat
  let n := orbitCount p.rows.toNat p.n.toNat
  { head := flitOf p.header, data := packFlits w (p.words.map BitVec.toNat) ((n * w + 511) / 512) }

/-- R120, R121: the orbit packet that flits spell. -/
def OptPkt.orbit (k : OptPkt) : OrbitPkt :=
  let h := k.head.toNat
  let kind := bits h 0 8
  let rows := bits h 70 4
  let n := bits h 74 7
  { rows := BitVec.ofNat 4 rows, rg := BitVec.ofNat 6 (bits h 64 6), lastRg := bit h 81, pidx := BitVec.ofNat 16 (bits h 40 16),
    tag := BitVec.ofNat 16 (bits h 24 16), kind := BitVec.ofNat 8 kind, n := BitVec.ofNat 7 n,
    hop := BitVec.ofNat 8 (bits h 56 8), dstg := BitVec.ofNat 8 (bits h 16 8), srcg := BitVec.ofNat 8 (bits h 8 8),
    srcMod := BitVec.ofNat 16 (bits h 96 16), cls := k.cls,
    words := (unpackFlits (orbitWidth kind) k.data (orbitCount rows n)).map w64 }

/-- R386: data flits that follow a header flit; none for a kind the hub does not know. -/
def dataFlits (h : Nat) : Option Nat :=
  let k := bits h 0 8
  if k = 1 || k = 2 then some ((orbitCount (bits h 70 4) (bits h 74 7) * orbitWidth k + 511) / 512)
  else if k = 0x21 || k = 0x22 then some 64
  else if k = 0x20 || k = 0x23 || k = 0x30 || k = 0x31 || k = 0x40 || k = 0x41 then some 0
  else none

/-- Flits of a packet. -/
def OptPkt.flits (k : OptPkt) : List FlitBits := k.head :: k.data

/-- R385: buffer size of a class. -/
def optBuf (c : Nat) : Nat := if c = 0 then 128 else 1024

/-- Class counts. -/
def OptPort.klass (p : OptPort) (c : Nat) : OptClass := p.cls.get .reset c

/-- R385: credits a sender holds for a class. -/
def OptPort.credits (p : OptPort) (c : Nat) : Nat :=
  let k := p.klass c
  optBuf c - (k.sent + 4096 - k.crn % 4096) % 4096

/-- R385: a class may send its oldest flit: it has one, and a credit. -/
def OptPort.canSend (p : OptPort) (c : Nat) : Bool := !(p.klass c).tx.isEmpty && decide (0 < p.credits c)

/-- R20, R385: the class whose flit takes the next slot: control over comet over tide, and tide in the 16th contest. -/
def OptPort.nextClass (p : OptPort) : Option Nat :=
  if p.canSend 0 then some 0
  else if p.canSend 2 && 15 ≤ p.tideLost then some 2
  else if p.canSend 1 then some 1
  else if p.canSend 2 then some 2
  else none

/-- The class of a class code (R383). -/
def optClassOf (c : Nat) : Class := if c = 0 then .control else if c = 1 then .comet else .tide

/-- R389: a flit as it leaves at track time `t`: a PROBE takes T1, a PROBE_REPLY T3. Both leave in control. -/
def stampFlit (c : Nat) (t : Word64) (f : FlitBits) : FlitBits :=
  let k := bits f.toNat 0 8
  if c = 0 && k = 0x40 then flitOf (f.toNat + t.toNat * 2 ^ 128)
  else if c = 0 && k = 0x41 then flitOf (f.toNat + t.toNat * 2 ^ 256)
  else f

/-- R370, R389: the probe that leaves in a slot at track time `t`, with its number. -/
def Meas.left (m : Meas) (c : Nat) (t : Word64) (f : FlitBits) : Meas :=
  if c = 0 && bits f.toNat 0 8 = 0x40 then
    let n := bits f.toNat 320 16
    { m with sent := (m.sent.filter fun e => e.1 != n) ++ [(n, t)] }
  else m

/-- R385: the oldest flit of class `c` takes a slot at track time `t`. -/
def OptPort.take (p : OptPort) (c : Nat) (t : Word64) : OptPort × FlitBits :=
  let k := p.klass c
  let f := k.tx.headD 0
  ({ p with cls := p.cls.set c { k with tx := k.tx.tail, sent := (k.sent + 1) % 4096 }
            tideLost := if c = 2 then 0 else if p.canSend 2 then p.tideLost + 1 else p.tideLost
            meas := p.meas.map fun m => m.left c t f }, stampFlit c t f)

/-- R385: the slots of a frame that leaves at track time `t`: at most `n` more flits. -/
def OptPort.fill (p : OptPort) (t : Word64) : Nat → List (Class × FlitBits) → OptPort × List (Class × FlitBits)
  | 0, acc => (p, acc)
  | n + 1, acc =>
    match p.nextClass with
    | none => (p, acc)
    | some c => let r := p.take c t; r.1.fill t n (acc ++ [(optClassOf c, r.2)])

/-- R383: a frame control word. -/
def ctlWord (fseq fack : BitVec 12) (nak : Bool) (crv : BitVec 2) (crn : BitVec 12) (slotv : BitVec 40) : BitVec 80 :=
  BitVec.ofNat 80 (fseq.toNat + fack.toNat * 2 ^ 12 + b2n nak * 2 ^ 24 + crv.toNat * 2 ^ 26 + crn.toNat * 2 ^ 28 + slotv.toNat * 2 ^ 40)

/-- R383, R385: a frame as it leaves now: current control fields, CRV in rotation, and SLOTV of the slots it fills, which are the lowest. -/
def OptPort.stamp (p : OptPort) (f : SentFrame) : OutFrame :=
  { ctl := ctlWord f.fseq (p.expect - 1) p.nak p.crv (BitVec.ofNat 12 (p.klass p.crv.toNat).freed) (BitVec.ofNat 40 (2 ^ f.slots.length - 1)),
    slots := f.slots }

/-- R385: CRV moves on: control, comet, tide. -/
def OptPort.turn (p : OptPort) : OptPort := { p with crv := if p.crv = 2 then 0 else p.crv + 1 }

/-- R380, R384: a new frame with these slots leaves in hc `hc`; it waits in the replay buffer for its acknowledgement. -/
def OptPort.emit (p : OptPort) (slots : List (Class × FlitBits)) (hc : Nat) : OptPort × OutFrame :=
  let f : SentFrame := { fseq := p.nextSeq, slots := slots }
  (({ p with nextSeq := p.nextSeq + 1, replay := p.replay ++ [f], fackAt := if p.replay.isEmpty then hc else p.fackAt } : OptPort).turn,
   p.stamp f)

/-- Whether a port sends new frames: frames pass, no retrain runs, and fewer than 64 are unacknowledged (R380, R384). -/
def OptPort.sends (p : OptPort) : Bool := p.linked && p.retrain.isNone && decide (p.replay.length < 64)

/-- R384, R385: a port sends what it may, at most `n` frames. Returns the frames that leave. -/
def OptPort.pump (p : OptPort) (t : Word64) (hc : Nat) : Nat → List OutFrame → OptPort × List OutFrame
  | 0, out => (p, out)
  | n + 1, out =>
    if p.sends && p.nextClass.isSome then
      let r := p.fill t 40 []
      let e := r.1.emit r.2 hc
      e.1.pump t hc n (out ++ [e.2])
    else (p, out)

/-- Frames that left port `p`. -/
def State.frames (s : State) (p : LinkId) (l : List OutFrame) : State :=
  { s with opt := { s.opt with sent := s.opt.sent ++ l.map fun f => (p.toNat, f) } }

/-- R482: let port `p` send, at most 64 frames can be unacknowledged; a frozen module sends no packet. -/
def State.pump (s : State) (p : LinkId) : State :=
  if s.clk.frozen then s
  else
    let r := (s.opt.port p).pump s.time.track s.clk.hc 64 []
    (s.updPort p fun _ => r.1).frames p r.2

/-- Hand a packet of class `c` to port `p`. -/
def State.optSend (s : State) (p : LinkId) (c : Nat) (k : OptPkt) : State :=
  (s.updPort p fun q =>
    let x := q.klass c
    { q with cls := q.cls.set c { x with tx := x.tx ++ k.flits } }).pump p

/-- R19, R117, R120, R124, R154: cell `g` sends an orbit packet to its successor (`fwd`) or predecessor, in the class of its command, tide
outside any: within the module, or through an optical port. -/
def State.sendOrbit (s : State) (g : CellId) (fwd : Bool) (k : OrbitPkt) : State :=
  let c := s.cell g
  let o := c.arr.orbit
  let x := if fwd then o.nextX else o.prevX
  let cls := s.cellClass g
  let k1 : OrbitPkt :=
    { k with srcg := g, dstg := if fwd then o.next else o.prev, srcMod := if x then s.opt.modnum else 0, cls := cls }
  if x then s.optSend (if fwd then o.oport else o.iport) (clsNat cls) k1.pack
  else { s with orbit := s.orbit ++ [k1] }

/-- The oldest packet on its way to cell `g` that `p` marks, and the packets without it. -/
def takeOrbit (g : CellId) (p : OrbitPkt → Bool) : List OrbitPkt → Option (OrbitPkt × List OrbitPkt)
  | [] => none
  | k :: rest =>
    if k.dstg = g && p k then some (k, rest)
    else match takeOrbit g p rest with | some (x, r) => some (x, k :: r) | none => none

end Sys2Proof.Machine
end

