-- ==== Sys2Proof/Machine/PageServe.lean ====
section
/-! DEFINITION. What the page engine does at a page's home (R392, R398, R400 to R403), and a port that goes down (R381, R479). -/

namespace Sys2Proof.Machine

/-- R393: the port toward module `d`. -/
def State.route (s : State) (d : Nat) : Option LinkId :=
  let f := s.opt.fwd.get ⟨0, false⟩ d
  if f.valid && d < 256 then some f.port else none

/-- R387: a header flit. -/
def optHeader (kind src dst cls hops : Nat) (rest : Nat) : FlitBits :=
  flitOf (kind + src * 2 ^ 16 + dst * 2 ^ 32 + cls * 2 ^ 48 + hops * 2 ^ 56 + rest)

/-- R390: count of packets discarded. -/
def State.badPkt (s : State) (p : LinkId) : State :=
  s.updPort p fun x => { x with badpkt := BitVec.ofNat 8 (satAdd 0xFF x.badpkt.toNat 1) }

/-- R393, R402: send a packet of this module toward module `d`, if a route is open; else it is discarded and counted at port `p`. -/
def State.sendTo (s : State) (p : LinkId) (d cls : Nat) (k : OptPkt) : State :=
  match s.route d with
  | some q => if (s.opt.port q).up then s.optSend q cls k else s.badPkt p
  | none => s.badPkt p

/-- R387: a PG_ACK that answers header `h`. -/
def State.pageAck (s : State) (p : LinkId) (h result : Nat) : State :=
  let d := bits h 16 16
  s.sendTo p d 0
    { head := optHeader 0x23 s.opt.modnum.toNat d 0 0 (bits h 64 16 * 2 ^ 64 + result * 2 ^ 88 + bits h 96 32 * 2 ^ 96), data := [] }

/-! Data. -/

/-- The flits of bytes, 64 each. -/
def flitsOf (bs : List Byte) (n : Nat) : List FlitBits := (List.range n).map fun i => flitOf (leNat ((bs.drop (64 * i)).take 64))

/-- The bytes of flits. -/
def bytesOf (fs : List FlitBits) : List Byte := fs.flatMap fun f => leBytes f.toNat 64

/-- R398: HBM offset of page `n` of the pool. -/
def State.poolOff (s : State) (n : Nat) : Nat := (s.opt.first.toNat + n) * 0x10000

/-- R401: scratch or HBM of this module: the place of a notify word. -/
def State.notifyPlace (s : State) (a : Nat) : Option Place :=
  if a % 8 ≠ 0 then none
  else match place s.hbmBytes 0 a with | .slice h o => some (.slice h o) | .hbm o => some (.hbm o) | _ => none

/-- R272, R398: the page engine writes memory directly, but for what lies in a fenced pseudo-channel; bytes of HBM come at multiples of 64
where they are more than 64. -/
def State.pageWrite (s : State) (pl : Place) (bs : List Byte) : State :=
  match pl with
  | .slice g o => s.hubSlice g o bs
  | .hbm o =>
    if s.fencedRange o bs.length then
      (List.range ((bs.length + 63) / 64)).foldl (fun s i =>
        if s.hbm.fencedAt (o + 64 * i) then s else s.hubHbm (o + 64 * i) ((bs.drop (64 * i)).take 64)) s
    else s.hubHbm o bs
  | _ => s

/-- R272: whether a write of the page engine is refused. -/
def State.pageRefused (s : State) (pl : Place) (n : Nat) : Bool := match pl with | .hbm o => s.fencedRange o n | _ => false

/-- R253, R264, R271: what a read of the page engine does: it corrects what the code can, and an uncorrectable error of HBM counts. -/
def State.pageMet (s : State) (pl : Place) (n : Nat) : State :=
  match pl with
  | .hbm o =>
    if s.fencedRange o n then s
    else
      let s1 := s.correctAt 0 pl n
      match s1.hbm.mem.bad.find? (unitMet hbmUnit o n) with
      | some u => s1.countUe (u * hbmUnit)
      | none => s1
  | .slice g _ => if s.cellDown g then s else s.correctAt g pl n
  | _ => s

/-- The page engine reads memory directly: bytes, or an uncorrectable error or a refusal (R402). -/
def State.pageRead (s : State) (pl : Place) (n : Nat) : Option (List Byte) :=
  match pl with
  | .slice g o => if s.cellDown g || (s.cell g).slice.anyBad sramUnit o n then none else some ((s.cell g).slice.readBytes o n)
  | .hbm o => if s.hbm.mem.anyBad hbmUnit o n || s.fencedRange o n then none else some (s.hbm.mem.readBytes o n)
  | _ => none

/-- R400: serve a GET: parts 0 to 15 in order; an uncorrectable error stops them and is answered. -/
def State.serveGet (s : State) (p : LinkId) (h : Nat) : State :=
  let page := s.poolOff (bits h 96 32)
  let parts := (List.range 16).map fun q => (q, s.pageRead (.hbm (page + 0x1000 * q)) 0x1000)
  let d := bits h 16 16
  let cls := bits h 48 2
  let good := parts.takeWhile fun x => x.2.isSome
  let met := (parts.take (good.length + 1)).foldl (fun s x => s.pageMet (.hbm (page + 0x1000 * x.1)) 0x1000) s
  let s1 := good.foldl (fun s x =>
    s.sendTo p d cls
      { head := optHeader 0x21 s.opt.modnum.toNat d cls 0 (bits h 64 16 * 2 ^ 64 + x.1 * 2 ^ 80 + bits h 96 32 * 2 ^ 96),
        data := flitsOf (x.2.getD []) 64 }) met
  if good.length = 16 then s1 else s1.pageAck p h 6

/-- R401, R403: all parts of PUT `b` are present: the page is performed, then the notify word, then PG_ACK goes. -/
def State.finishPut (s : State) (b : PageServe) : State :=
  let h := b.head.toNat
  let page := s.poolOff b.page.toNat
  let bs := (List.range 16).flatMap fun q => bytesOf (b.parts.get [] q)
  if s.fencedRange page 0x10000 then s.pageAck b.port h 6
  else
    let s2 := s.pageWrite (.hbm page) bs
    match if bit h 84 then s.notifyPlace (bits h 128 64) else none with
    | some pl => (s2.pageWrite pl (leBytes (bits h 192 64) 8)).pageAck b.port h (if s2.pageRefused pl 8 then 6 else 0)
    | none => s2.pageAck b.port h 0

/-- R403: whether an operation can be performed: a GET, or a PUT with all its parts. -/
def PageServe.whole (b : PageServe) : Bool := !b.put || b.parts.length == 16

/-- R403: the first operation that can be performed and that no earlier one on its page precedes; `seen` are the pages of earlier ones. -/
def firstWhole : List PageServe → List Word32 → Option PageServe
  | [], _ => none
  | b :: rest, seen => if b.whole && !seen.contains b.page then some b else firstWhole rest (b.page :: seen)

/-- R400, R401: an admitted operation is performed. -/
def State.servePage (s : State) (b : PageServe) : State := if b.put then s.finishPut b else s.serveGet b.port b.head.toNat

/-- R403: operations on one page are performed one at a time, in the order of their admission; the number bounds them. -/
def State.servePages (s : State) : Nat → State
  | 0 => s
  | n + 1 =>
    match firstWhole s.opt.admitted [] with
    | none => s
    | some b => (State.servePage { s with opt := { s.opt with admitted := s.opt.admitted.erase b } } b).servePages n

/-- Perform what can be performed. -/
def State.serveAll (s : State) : State := s.servePages s.opt.admitted.length

/-! A port goes down (R381). -/

/-- R402: write STATUS of a descriptor at an offset of cell `g`'s slice; a cell in reset takes none. -/
def State.writeStatus (s : State) (g : CellId) (off result : Nat) : State :=
  s.hubSlice g (off + 32) (leBytes (1 + result * 2 ^ 8 + s.time.track.toNat % 2 ^ 32 * 2 ^ 32) 8)

/-- R402: a page operation ends with a result. -/
def State.pageStatus (s : State) (o : PageOp) (result : Nat) : State :=
  State.writeStatus { s with opt := { s.opt with ops := s.opt.ops.filter fun x => x.reqid != o.reqid } } o.cell o.desc result

/-- R381, R401: what the page engine does when port `p` has gone down: a PUT that came by it and is not whole is dropped, and the operations of
this module's cells that go over it end with LINKDOWN. -/
def State.pagesDown (s : State) (p : LinkId) : State :=
  let s1 := { s with opt := { s.opt with admitted := s.opt.admitted.filter fun b => b.whole || b.port != p } }
  let lost := s1.opt.ops.filter fun o => s.route o.dstmod.toNat == some p
  (lost.foldl (fun s o => s.pageStatus o 7) s1).serveAll

/-- R381, R390, R479: port `p` goes down with a reason. In a frozen module the page engine hears of it at the release. -/
def State.portDown (s : State) (p : LinkId) (why : BitVec 4) : State :=
  let s1 := s.updPort p fun x =>
    { x with up := false, linked := false, width := 0, why := why, replay := [], retrain := none, meas := none,
             cls := x.cls.map fun e => (e.1, { e.2 with tx := [], part := [], hurt := [] }) }
  let s2 := { s1 with opt := { s1.opt with eph := s1.opt.eph.upd .reset p.toNat fun e => { e with valid := false } } }
  let s3 := if s.clk.frozen then { s2 with opt := { s2.opt with downDue := s2.opt.downDue ++ [p] } } else s2.pagesDown p
  s3.raiseHub mechOptical actPortDown 2 0xB p.toNat 0 0 none

/-- R478, R479, R482: at the release the page engine hears of ports that went down, and the ports send what waits. -/
def State.wakeOptics (s : State) : State :=
  let s1 := s.opt.downDue.foldl State.pagesDown { s with opt := { s.opt with downDue := [] } }
  (List.range 8).foldl (fun s p => s.pump (BitVec.ofNat 3 p)) s1

/-- R377, R380: the reason for which a port goes down in hc `hc`: its training has taken 120 ms, or its retrain 2 ms (log 60). -/
def OptPort.lapsed (x : OptPort) (hc : Nat) : Option (BitVec 4) :=
  match x.retrain with
  | some t => if t + 2 * hcPerMs ≤ hc then some 5 else none
  | none => if x.linked && !x.up && decide (x.trainBy ≤ hc) then some 3 else none

/-- R377, R380: ports whose training or retrain has taken too long go down. -/
def State.lapsePorts (s : State) : State :=
  if s.opt.ports.any fun e => (e.2.lapsed s.clk.hc).isSome then
    s.opt.ports.foldl (fun t e => match e.2.lapsed s.clk.hc with | some why => t.portDown (BitVec.ofNat 3 e.1) why | none => t) s
  else s

end Sys2Proof.Machine
end

