-- ==== Sys2Proof/Machine/Elems.lean ====
section
/-! DEFINITION. Packed elements (R49, R125), stochastic-rounding draws (R59), and the balanced pairwise sum (R85): what the pilot's wide
instructions, the vector unit and the arrays share. -/

namespace Sys2Proof.Machine

/-- Element `i` of width `w`. -/
def elemAt (v w i : Nat) : Nat := bits v (w * i) w

/-- Registers from elements. -/
def ofElems (w n : Nat) (f : Nat → Nat) : Nat := ((List.range n).map fun i => f i % 2 ^ w * 2 ^ (w * i)).sum

/-- Bitwise or of flags. -/
def orFlags (l : List FFlags) : FFlags := l.foldl (· ||| ·) 0

/-- R59: one step of the LFSR. -/
def lfsrStep (s : Word32) : Word32 :=
  let fb := xor (xor (s.getLsbD 31) (s.getLsbD 21)) (xor (s.getLsbD 1) (s.getLsbD 0))
  (s <<< 1) ||| (if fb then 1 else 0)

/-- R59: `n` steps. -/
def lfsrSteps (s : Word32) : Nat → Word32
  | 0 => s
  | n + 1 => lfsrSteps (lfsrStep s) n

/-- R59: a draw, and the state after it. -/
def srDraw (s : Word32) : Nat × Word32 := (bits s.toNat 16 16, lfsrSteps s 16)

/-- R56, R57, R59: one element's rounding: a draw where the instruction rounds under SR. -/
def laneRnd (vrm : BitVec 2) (sr : Bool) (srv : Word32) : Rnd × Word32 :=
  if sr && vrm = 2 then let d := srDraw srv; (.sr d.1, d.2) else (Rnd.plain vrm, srv)

/-- R85: the balanced pairwise sum of 2^`n` positions from `i`; an absent term passes the other one on. -/
def pairTree {α : Type} (add : α → α → α) (get : Nat → Option α) : Nat → Nat → Option α
  | 0, i => get i
  | n + 1, i =>
    match pairTree add get n i, pairTree add get n (i + 2 ^ n) with
    | some a, some b => some (add a b)
    | some a, none => some a
    | none, b => b

end Sys2Proof.Machine
end

