-- ==== Sys2Proof/Machine/PassForm.lean ====
section
/-! DEFINITION. The form of a pass (R75 to R78, R85 to R91, R117): the fields of its descriptor, its formats, steps, chunks and roles. -/

namespace Sys2Proof.Machine

/-- R90: the fields of a descriptor. -/
structure Desc where
  afmt : Nat
  bfmt : Nat
  ofmt : Nat
  cmode : Nat
  rnd : Nat
  fpx : Nat
  sca : Bool
  scb : Bool
  src : Bool
  orb : BitVec 2
  chunk : Nat
  len : Nat
  m : Nat
  n : Nat
  k : Nat
  pidx : Nat
  aOff : Nat
  bOff : Nat
  cOff : Nat
  oOff : Nat
  saOff : Nat
  sbOff : Nat
  aStr : Nat
  bStr : Nat
  cStr : Nat
  oStr : Nat
  saStr : Nat
  sbStr : Nat
  tag : Nat
deriving DecidableEq, Repr

/-- R90: read the fields. -/
def Desc.ofWords (l : List Word64) : Desc :=
  let w (i : Nat) : Nat := (l.getD i 0).toNat
  { afmt := bits (w 0) 0 4, bfmt := bits (w 0) 4 4, ofmt := bits (w 0) 8 4, cmode := bits (w 0) 12 2, rnd := bits (w 0) 14 2,
    fpx := bits (w 0) 16 2, sca := bit (w 0) 18, scb := bit (w 0) 19, src := bit (w 0) 20, orb := BitVec.ofNat 2 (bits (w 0) 24 2),
    chunk := bits (w 0) 32 8, len := bits (w 0) 40 14, m := bits (w 1) 0 9, n := bits (w 1) 9 7, k := bits (w 1) 16 24,
    pidx := bits (w 1) 40 16, aOff := bits (w 2) 0 28, bOff := bits (w 2) 28 28, cOff := bits (w 3) 0 28,
    oOff := bits (w 3) 28 28, saOff := bits (w 4) 0 28, sbOff := bits (w 4) 28 28, aStr := bits (w 5) 0 20,
    bStr := bits (w 5) 20 20, cStr := bits (w 5) 40 20, oStr := bits (w 6) 0 20, saStr := bits (w 6) 20 16,
    sbStr := bits (w 6) 36 16, tag := bits (w 7) 0 16 }

/-- R90: bits that must be 0. -/
def descReserved (l : List Word64) : Bool :=
  let w (i : Nat) : Nat := (l.getD i 0).toNat
  bits (w 0) 21 3 != 0 || bits (w 0) 26 6 != 0 || bits (w 0) 54 10 != 0 || bits (w 1) 56 8 != 0 || bits (w 2) 56 8 != 0
    || bits (w 3) 56 8 != 0 || bits (w 4) 56 8 != 0 || bits (w 5) 60 4 != 0 || bits (w 6) 52 12 != 0 || bits (w 7) 16 48 != 0

/-- R78: operand codes: FP32, FP16, BF16, FP12, the narrow floats, INT8 and INT4. -/
def opCode (c : Nat) : Bool := (1 ≤ c && c ≤ 9) || c == 0xB || c == 0xC

/-- R77: the floating-point operand formats that may be mixed. -/
def mixable (c : Nat) : Bool := 2 ≤ c && c ≤ 9

/-- R77: whether two formats pair. -/
def pairs (a b : Nat) : Bool := (mixable a && mixable b) || (a == b && (a == 1 || a == 0xB || a == 0xC))

/-- R76: rate factor of a format. -/
def rateOf (c : Nat) : Nat := if c = 9 then 4 else if (5 ≤ c && c ≤ 8) || c = 0xC then 2 else 1

/-- R77: rate factor of a pass. -/
def Desc.rate (d : Desc) : Nat := min (rateOf d.afmt) (rateOf d.bfmt)

/-- R75: K positions of one step. -/
def Desc.kg (d : Desc) : Nat := 16 * d.rate

/-- Whether it is an FP32 pass. -/
def Desc.fp32 (d : Desc) : Bool := d.afmt == 1 && d.bfmt == 1

/-- R76: cc of one step. -/
def Desc.period (d : Desc) : Nat := if d.fp32 then d.fpx + 1 else 1

/-- R78: an integer pass: unscaled INT8, or INT4. -/
def Desc.int (d : Desc) : Bool := (d.afmt == 0xB && !d.sca && !d.scb) || d.afmt == 0xC

/-- R86: chunk length in K positions; an integer pass has one chunk (R89). -/
def Desc.ch (d : Desc) : Nat := (d.chunk + 1) * 16

/-- ⌈a / b⌉. -/
def ceilDiv (a b : Nat) : Nat := (a + b - 1) / b

/-- R89, R92: number of chunks. -/
def Desc.nchunk (d : Desc) : Nat := if d.int then 1 else ceilDiv d.k d.ch

/-- Steps of one row group. -/
def Desc.ksteps (d : Desc) : Nat := ceilDiv d.k d.kg

/-- Row groups; none when nothing is computed. -/
def Desc.rowGroups (d : Desc) : Nat := if d.n = 0 then 0 else ceilDiv d.m 4

/-- Steps of the pass. -/
def Desc.steps (d : Desc) : Nat := if d.m = 0 || d.n = 0 || d.k = 0 then 0 else ceilDiv d.m 4 * d.ksteps

/-- R91: the length. -/
def Desc.length (d : Desc) : Nat := d.steps * d.period

/-- Width of an element code. -/
def codeWidth (c : Nat) : Nat := ((Elem.ofCode c).getD .fp64).width

/-- Bytes of `n` packed elements (R49). -/
def packedBytes (c n : Nat) : Nat := ceilDiv (n * codeWidth c) 8

/-- R87: bytes of a C element. -/
def Desc.cSize (d : Desc) : Nat := if d.cmode = 2 then 8 else 4

/-- R154: roles. -/
def roleFirst : BitVec 2 := 1

/-- R154. -/
def roleMiddle : BitVec 2 := 2

/-- R154. -/
def roleLast : BitVec 2 := 3

end Sys2Proof.Machine
end

