-- ==== Sys2Proof/Machine/PassMath.lean ====
section
/-! DEFINITION. Arithmetic of one pass step (R83 to R89) and its checks (R104, R105), on operands already read. -/

namespace Sys2Proof.Machine

/-- An entry of a table of rows. -/
def at2 (l : List (List Nat)) (i j : Nat) : Nat := (l.getD i []).getD j 0

/-- The value of an operand without its scale (R46, R48). -/
def opVal (code x : Nat) : FVal := if code = 0xB then mxint8 x else ((Elem.ofCode code).getD .fp32).decodeF x

/-- R83: the partial products that FPX selects for two values of at most 24 significant bits, summed exactly. -/
def splitMul (fpx : Nat) (x y : FVal) : FVal × Bool :=
  match x, y with
  | .fin s m e, .fin t n f =>
    let hi (v : Nat) : Nat := v / 4096 * 4096
    let lo (v : Nat) : Nat := v % 4096
    let cross := hi m * lo n + lo m * hi n
    let p := hi m * hi n + (if 2 ≤ fpx then cross else 0) + (if fpx = 3 then lo m * lo n else 0)
    (.fin (xor s t) p (e + f), false)
  | _, _ => x.mul y

/-- R84: one product, rounded once to FP32. -/
def Desc.product (d : Desc) (o : StepOps) (i n j : Nat) : FRes :=
  let x := opVal d.afmt (at2 o.a i j)
  let y := opVal d.bfmt (at2 o.b n j)
  let r := Rnd.plain (BitVec.ofNat 2 d.rnd)
  if d.fp32 then
    let p := splitMul d.fpx x y
    (Elem.fp32.roundVal r p.1).orFlags (snanIV [x, y] ||| flIf p.2 flIV)
  else
    let p := scaledProduct x y (at2 o.asc i j) (at2 o.bsc n j)
    (Elem.fp32.roundVal r p.1).orFlags p.2

/-- R85: an FP32 addition of the accumulation. -/
def acc32 (r : Rnd) (x y : FRes) : FRes :=
  (Elem.fp32.fadd r true (Elem.fp32.decodeF x.bits) (Elem.fp32.decodeF y.bits)).orFlags (x.flags ||| y.flags)

/-- Two terms of which either may be absent (R85). -/
def joinAbs {α : Type} (add : α → α → α) (x y : Option α) : Option α :=
  match x, y with
  | some a, some b => some (add a b)
  | some a, none => some a
  | none, b => b

/-- R85: v of row `i` of the group and column `n`: the four cube rows' trees, added down the chain. -/
def Desc.rowV (d : Desc) (o : StepOps) (i n : Nat) : FRes :=
  let add := acc32 (Rnd.plain (BitVec.ofNat 2 d.rnd))
  let u (r : Nat) : Option FRes :=
    pairTree add (fun j => if j < o.cnt then some (d.product o i n j) else none) (Nat.log2 (4 * d.rate)) (4 * d.rate * r)
  (joinAbs add (joinAbs add (joinAbs add (u 0) (u 1)) (u 2)) (u 3)).getD ⟨0, 0⟩

/-- R89: the integer v. -/
def Desc.intV (d : Desc) (o : StepOps) (i n : Nat) : Nat :=
  let t (c x : Nat) : Int := ((Elem.ofCode c).getD .int8).decodeI x
  let z := (List.range o.cnt).foldl (fun z j => z + t d.afmt (at2 o.a i j) * t d.bfmt (at2 o.b n j)) 0
  Elem.int32.encodeI z

/-- v of row `i` and column `n`, by the kind of pass. -/
def Desc.stepV (d : Desc) (o : StepOps) (i n : Nat) : FRes := if d.int then ⟨d.intV o i n, 0⟩ else d.rowV o i n

/-! Checksum cubes (R104, R105). -/

/-- A value with its block scale (R52, R53). -/
def scaledVal (v : FVal) (c : Nat) : FVal :=
  match scaleExp c with
  | none => .nan false
  | some x => match v with | .fin s m e => .fin s m (e + x) | w => w

/-- The value an FP32 encoding stands for. -/
def val32 (b : Nat) : FVal := Elem.fp32.decodeF b

/-- R104: w_sum(k) or w_abs(k) of array `a`, as an FP32 encoding. -/
def Desc.wsum (d : Desc) (o : StepOps) (ar j : Nat) (ab : Bool) : Nat :=
  let add (x y : Nat) : Nat := (Elem.fp32.roundVal .rne ((val32 x).add (val32 y)).1).bits
  let col (n : Nat) : Option Nat :=
    if 16 * ar + n < d.n then
      let v := scaledVal (opVal d.bfmt (at2 o.b (16 * ar + n) j)) (at2 o.bsc (16 * ar + n) j)
      some (Elem.fp32.roundVal .rne (if ab then v.abs else v)).bits
    else none
  (pairTree add col 4 0).getD 0

/-- An exact product of the checker: partial products only, in an FP32 pass. -/
def Desc.checkMul (d : Desc) (x y : FVal) : FVal := if d.fp32 then (splitMul d.fpx x y).1 else (x.mul y).1

/-- A sum of exact values, rounded once to FP64 by RNE. -/
def sum64 (l : List FVal) : FVal :=
  Elem.fp64.decodeF (Elem.fp64.roundVal .rne (l.foldl (fun a v => (a.add v).1) (.fin false 0 0))).bits

/-- Whether a value is finite. -/
def FVal.finite : FVal → Bool
  | .fin _ _ _ => true
  | _ => false

/-- R105: X (or Y) of row `i` and array `ar`. -/
def Desc.checkSum (d : Desc) (o : StepOps) (ar i : Nat) (ab : Bool) : FVal :=
  sum64 ((List.range o.cnt).map fun j =>
    let x := scaledVal (opVal d.afmt (at2 o.a i j)) (at2 o.asc i j)
    d.checkMul (if ab then x.abs else x) (val32 (d.wsum o ar j ab)))

/-- R105: whether the comparison fails for array `ar` and row `i`, given the values v that arrived. -/
def Desc.checkFails (d : Desc) (o : StepOps) (v : Nat → Nat → Nat) (ar i : Nat) : Bool :=
  let cols := (List.range 16).map (16 * ar + ·) |>.filter (· < d.n)
  if d.int then
    let t (c x : Nat) : Int := ((Elem.ofCode c).getD .int8).decodeI x
    let w (j : Nat) : Int := (cols.map fun n => t d.bfmt (at2 o.b n j)).sum
    let x := ((List.range o.cnt).map fun j => t d.afmt (at2 o.a i j) * w j).sum
    (cols.map fun n => v i n).sum % 2 ^ 32 != Elem.int32.encodeI x
  else
    let x := d.checkSum o ar i false
    let y := d.checkSum o ar i true
    let dd := sum64 (cols.map fun n => val32 (v i n))
    if !(x.finite && y.finite) then false
    else if !dd.finite then true
    else
      let lim := ((y.mul (.fin false 1 (-12))).1.add (.fin false 1 (-149))).1
      0 < ((dd.add x.neg).1.abs).cmp lim

/-! Totals (R85, R88). -/

/-- R85: the running total of output `x` of a row group: its initial value, then its chunk sums. -/
def Desc.total (d : Desc) (init : Nat) (chunks : List (List Nat)) (x : Nat) : FRes :=
  let r := Rnd.plain (BitVec.ofNat 2 d.rnd)
  chunks.foldl (fun t c =>
    if d.int then ⟨(t.bits + c.getD x 0) % 2 ^ 32, 0⟩
    else (Elem.fp64.fadd r true (Elem.fp64.decodeF t.bits) (val32 (c.getD x 0))).orFlags t.flags) ⟨init, 0⟩

/-- R88: round one total to OFMT, with the drain generator's state before and after. -/
def Desc.outOf (d : Desc) (t : Nat) (srd : Word32) : FRes × Word32 :=
  if d.int then (⟨t, 0⟩, srd)
  else
    let o := (Elem.ofCode d.ofmt).getD .fp64
    let r := laneRnd (BitVec.ofNat 2 d.rnd) o.takesSr srd
    (convertElem .fp64 o r.1 t, r.2)

end Sys2Proof.Machine
end

