-- ==== Sys2Proof/Machine/PassRun.lean ====
section
/-! DEFINITION. The pass engine at work (R80 to R124): the reads of a step's operands, the step, the fold of orbit totals, the checks'
aborts, the start, and the commit, each in its cc. `State.passMoment` is what the engine of one cell does in the present cc; time
passes it as it goes (Advance). -/

namespace Sys2Proof.Machine

/-- The descriptor of a pass. -/
def Pass.desc (p : Pass) : Desc := Desc.ofWords p.dw

/-- Replace pass number `i`. -/
def Cell.setPass (c : Cell) (i : Nat) (p : Pass) : Cell := { c with arr := { c.arr with passes := c.arr.passes.set i p } }

/-- The first outstanding pass that `f` marks, with its number. -/
def Arr.findPass (a : Arr) (f : Pass → Bool) : Option (Nat × Pass) :=
  match a.passes.findIdx? f with
  | some i => (a.passes[i]?).map fun p => (i, p)
  | none => none

/-- The pass that steps. -/
def Arr.stepper (a : Arr) : Option (Nat × Pass) := a.findPass fun p => p.stage == .stepping

/-- R98, R459: arrays that the pass uses are busy to cc `t`, then wait for `why`. -/
def Cell.arraysTo (c : Cell) (d : Desc) (t : Nat) (why : Byte) : Cell :=
  (List.range (ceilDiv d.n 16)).foldl (fun c a => c.engine (2 + a) t why) c

/-! Reads of the own slice. -/

/-- `n` bytes of the own slice at offset `o`, read in this cc, and whether they met an uncorrectable error. -/
def State.sliceRead (s : State) (g : CellId) (o n : Nat) : List Byte × Bool :=
  (s.readOwn g .slice o n s.clk.cc none, s.badHome g (.slice g o) n)

/-- R49, R80, R81: packed elements `k0` to `k0` + `cnt` − 1 of a run at offset `o`; `k0` is a multiple of 16. -/
def State.sliceElems (s : State) (g : CellId) (code o k0 cnt : Nat) : List Nat × Bool :=
  let w := codeWidth code
  let x := s.sliceRead g (o + k0 * w / 8) (packedBytes code cnt)
  ((List.range cnt).map fun j => elemAt (leNat x.1) w j, x.2)

/-- R82: the scale codes of K positions `k0` to `k0` + `cnt` − 1 of a row whose scales lie at `o`; 127 without scales. -/
def State.sliceScales (s : State) (g : CellId) (has : Bool) (o k0 cnt : Nat) : List Nat × Bool :=
  if !has || cnt = 0 then (List.replicate cnt 127, false)
  else
    let b0 := k0 / 32
    let x := s.sliceRead g (o + b0) ((k0 + cnt - 1) / 32 - b0 + 1)
    ((List.range cnt).map fun j => (x.1.getD ((k0 + j) / 32 - b0) 0).toNat, x.2)

/-- R140: a row's elements and scale codes in a slice of the feed queue. -/
def feedRow (d : Desc) (sl : Nat) (i k0 cnt : Nat) : List Nat × List Nat :=
  ((List.range cnt).map fun j => elemAt (bits sl (512 * i) 512) (codeWidth d.afmt) j,
   (List.range cnt).map fun j =>
     if d.sca then bits sl (8 * (256 + 2 * i + ((k0 + j) / 32 - k0 / 32))) 8 else 127)

/-- Rows of row group `rg`. -/
def Desc.rowsOf (d : Desc) (rg : Nat) : Nat := min 4 (d.m - 4 * rg)

/-- First K position of step `st` in its row group. -/
def Desc.k0 (d : Desc) (st : Nat) : Nat := st % d.ksteps * d.kg

/-- K positions of step `st` that lie below K. -/
def Desc.cnt (d : Desc) (st : Nat) : Nat := min d.kg (d.k - d.k0 st)

/-- R80, R82: the activations of step `st` of its row group; `feed` is the slice of the feed queue, if SRC = 1. -/
def State.stepRows (s : State) (g : CellId) (d : Desc) (feed : Option Nat) (st : Nat) :
    List ((List Nat × Bool) × (List Nat × Bool)) :=
  let rg := st / d.ksteps
  (List.range (d.rowsOf rg)).map fun i =>
    match feed with
    | some sl => let x := feedRow d sl i (d.k0 st) (d.cnt st); ((x.1, false), (x.2, false))
    | none =>
      (s.sliceElems g d.afmt (d.aOff + (4 * rg + i) * d.aStr) (d.k0 st) (d.cnt st),
       s.sliceScales g d.sca (d.saOff + (4 * rg + i) * d.saStr) (d.k0 st) (d.cnt st))

/-- R81, R82: columns `lo` to below `hi` of the weight panel of step `st`. -/
def State.stepCols (s : State) (g : CellId) (d : Desc) (st lo hi : Nat) : List ((List Nat × Bool) × (List Nat × Bool)) :=
  (List.range (hi - lo)).map fun n =>
    (s.sliceElems g d.bfmt (d.bOff + (lo + n) * d.bStr) (d.k0 st) (d.cnt st),
     s.sliceScales g d.scb (d.sbOff + (lo + n) * d.sbStr) (d.k0 st) (d.cnt st))

/-- R81, R99: columns of an FP32 panel that are read in the first of its two cc; none in another pass (log 12). -/
def Desc.firstCols (d : Desc) : Nat := if d.fp32 then (d.n + 1) / 2 else 0

/-- R81: the first part of an FP32 panel, for a broadcast in cc `b`. -/
def State.readHalf (s : State) (g : CellId) (d : Desc) (st b : Nat) : HalfPanel :=
  let cols := s.stepCols g d st 0 d.firstCols
  { at' := b, b := cols.map fun x => x.1.1, bsc := cols.map fun x => x.2.1, bad := cols.any fun x => x.1.2 || x.2.2 }

/-- R80 to R82, R99: the operands of step `st`, the rest of the panel read in this cc, and whether a read met an uncorrectable error. -/
def State.stepOps (s : State) (g : CellId) (d : Desc) (feed : Option Nat) (half : HalfPanel) (st : Nat) : StepOps × Bool :=
  let rows := s.stepRows g d feed st
  let cols := s.stepCols g d st d.firstCols d.n
  ({ a := rows.map fun x => x.1.1, asc := rows.map fun x => x.2.1, b := half.b ++ cols.map fun x => x.1.1,
     bsc := half.bsc ++ cols.map fun x => x.2.1, cnt := d.cnt st },
   half.bad || (rows ++ cols).any fun x => x.1.2 || x.2.2)

/-- R87: the initial totals of row group `rg`, with their flags, and whether a C read met an uncorrectable error. -/
def State.initTotals (s : State) (g : CellId) (d : Desc) (rg : Nat) : List FRes × Bool :=
  if d.cmode = 0 then (List.replicate (d.rowsOf rg * d.n) ⟨0, 0⟩, false)
  else
    let rows := (List.range (d.rowsOf rg)).map fun i =>
      s.sliceRead g (d.cOff + (4 * rg + i) * d.cStr) (d.n * d.cSize)
    ((rows.flatMap fun x => (List.range d.n).map fun n =>
        let e := leNat ((x.1.drop (n * d.cSize)).take d.cSize)
        if d.cmode = 1 then convertElem .fp32 .fp64 .rne e else ⟨e, 0⟩),
     rows.any Prod.snd)

/-- A run of bytes of the own slice that a pass reads, and the engine that reads it (R451): the array of a weight column, array 0 for the
activations, which go to every array, and the drain for C. -/
structure SliceRun where
  eng : Byte
  off : Nat
  len : Nat
deriving DecidableEq, Repr

/-- R87: the C elements of row group `rg`, where a pass reads any. -/
def Desc.cRuns (d : Desc) (rg : Nat) : List SliceRun :=
  if d.cmode = 0 then [] else (List.range (d.rowsOf rg)).map fun i => { eng := 7, off := d.cOff + (4 * rg + i) * d.cStr, len := d.n * d.cSize }

/-- R80 to R82, R87: the runs of the own slice that step `st` reads: activations, weights, their scales, and with a row group's first step its
C elements. -/
def Desc.runs (d : Desc) (st : Nat) : List SliceRun :=
  let rg := st / d.ksteps
  let k0 := d.k0 st
  let elems (e : Byte) (code o : Nat) : SliceRun := { eng := e, off := o + k0 * codeWidth code / 8, len := packedBytes code (d.cnt st) }
  let scales (e : Byte) (has : Bool) (o : Nat) : List SliceRun :=
    if has && d.cnt st ≠ 0 then [{ eng := e, off := o + k0 / 32, len := (k0 + d.cnt st - 1) / 32 - k0 / 32 + 1 }] else []
  let array (n : Nat) : Byte := BitVec.ofNat 8 (2 + n / 16)
  let rows := (List.range (d.rowsOf rg)).flatMap fun i => elems 2 d.afmt (d.aOff + (4 * rg + i) * d.aStr)
    :: scales 2 d.sca (d.saOff + (4 * rg + i) * d.saStr)
  let cols := (List.range d.n).flatMap fun n => elems (array n) d.bfmt (d.bOff + n * d.bStr) :: scales (array n) d.scb (d.sbOff + n * d.sbStr)
  (if d.src then [] else rows) ++ cols ++ (if st % d.ksteps = 0 then d.cRuns rg else [])

/-- R253: the reads of step `st` correct what the code can. -/
def State.correctStep (s : State) (g : CellId) (d : Desc) (st : Nat) : State :=
  if (s.cell g).slice.soft.isEmpty then s else (d.runs st).foldl (fun s r => s.correctAt g (.slice g r.off) r.len) s

/-- Whether a pass takes its initial totals from its predecessor (R117). -/
def Desc.receives (d : Desc) : Bool := d.orb == roleMiddle || d.orb == roleLast

/-- Whether a pass sends its totals to its successor (R117). -/
def Desc.sends (d : Desc) : Bool := d.orb == roleFirst || d.orb == roleMiddle

/-- Whether step `st` is the first of a row group that starts from its own initial totals (R87, R117). -/
def Desc.opens (d : Desc) (st : Nat) : Bool := st % d.ksteps == 0 && !d.receives

/-- A row group before anything of it is known. -/
def RgAcc.empty : RgAcc := { init := none, chunks := [], cur := [], hop := 0 }

/-! Broadcasts and bubbles (R96, R97, R140). -/

/-- R96, R118: the first cc from `t` on in which the drain does not fold. -/
def Arr.unfolded (a : Arr) (t : Nat) : Nat := a.folds.foldl (fun t f => if f.from' ≤ t && t < f.to' then f.to' else t) t

/-- R97: the cc in which the bubbles or the waiting of a pass reach the limit. -/
def Pass.limitAt (p : Pass) (limit : Nat) : Nat := p.due + (limit - p.stall)

/-- The slice that the next broadcast takes. -/
def Cell.nextSlice (c : Cell) : Option Slice := (c.vec.feed.drop (b2n c.arr.pop.isSome)).head?

/-- R96, R140: the cc of the stepping pass's next broadcast as things stand; none while the feed queue has no slice for it, or where the
stall limit comes first. -/
def Cell.broadcastAt (c : Cell) (p : Pass) : Option Nat :=
  let from' := if p.desc.src then c.nextSlice.map Slice.from' else some 0
  (from'.map fun f => c.arr.unfolded (max p.due f)).filter fun b => b < p.limitAt c.arr.stallLimit.toNat

/-! Orbit totals (R118 to R122). -/

/-- R122: whether a packet is the one that pass `d` expects for row group `rg`. -/
def Desc.expects (d : Desc) (o : OrbitReg) (rg : Nat) (k : OrbitPkt) : Bool :=
  k.tag.toNat == d.tag && k.pidx.toNat == d.pidx && k.rg.toNat == rg && k.n.toNat == d.n
    && k.rows.toNat == 2 ^ d.rowsOf rg - 1 && k.srcg == o.prev && k.kind.toNat == (if d.int then 2 else 1)

/-- R118: the pass that waits for totals: the oldest one begun that receives and lacks some. -/
def Arr.receiver (a : Arr) : Option (Nat × Pass) :=
  a.findPass fun p => p.stage != .queued && p.desc.receives && p.groups.any fun x => x.init.isNone

/-- The row group whose totals a pass expects next. -/
def Pass.nextRg (p : Pass) : Nat := (p.groups.findIdx? fun x => x.init.isNone).getD p.groups.length

/-- R96: a fold in cc `f` up to before `t` holds back a broadcast: operands read for one in those cc are read again. -/
def Pass.reread (p : Pass) (f : Nat) : Pass :=
  { p with ready := p.ready.filter fun r => r.at' < f, half := p.half.filter fun h => h.at' < f }

/-- R96, R118: totals of row group `rg` of pass number `i` arrive in cc `now`. The chunk sums that stand in the buffer by then fold one
each cc, from the following cc or from the end of a fold under way; the staging of a pass that waited comes after it. A mismatch of the
fold's additions (R107) aborts the pass in its last cc. -/
def Cell.takeTotals (c : Cell) (i : Nat) (p : Pass) (rg : Nat) (k : OrbitPkt) (now : Nat) : Cell :=
  let acc := p.groups.getD rg .empty
  let n := (acc.ends.filter fun t => decide (t ≤ now)).length
  let f0 := c.arr.folds.foldl (fun t f => max t f.to') (now + 1)
  let folds := if n = 0 then c.arr.folds else c.arr.folds.filter (fun f => now < f.to') ++ [{ from' := f0, to' := f0 + n, issue := p.issue }]
  let p1 : Pass := { p with groups := p.groups.set rg { acc with init := some (k.words.map BitVec.toNat), hop := k.hop.toNat },
                            staged := if p.stage == .stepped then max p.staged (f0 + n) else p.staged
                            fail := p.fail.or (if acc.foldBad && n != 0 then some (f0 + n - 1, abResidue) else none) }
  let p2 : Pass := if p1.waits || !p.waits then p1 else { p1 with stall := p.stallNow now }
  let c1 : Cell := { c with arr := { c.arr with folds := folds } }
  let c2 := (c1.setPass i p2).span 7 f0 (f0 + n) 0
  let c2 := if p2.waits then c2 else (c2.arraysTo p.desc 0 0).unhold 7 0x12
  { c2 with arr := { c2.arr with passes := c2.arr.passes.map fun x => if x.stage == .stepping && n != 0 then x.reread f0 else x } }

/-- R122: the receiving pass meets the packets of the inbox, oldest first; a mismatch, or the turn of a packet that was lost, aborts
it with cause ORBIT. -/
def Cell.drainInbox (c : Cell) (now : Nat) : Nat → Cell
  | 0 => c
  | fuel + 1 =>
    match c.arr.receiver with
    | none => c
    | some (i, p) =>
      let rg := p.nextRg
      let d := p.desc
      if c.arr.lost.any (d.expects c.arr.orbit rg) then
        ({ c with arr := { c.arr with lost := c.arr.lost.filter fun k => !d.expects c.arr.orbit rg k } } : Cell).abortAt i abOrbit now
      else
        match c.arr.inbox with
        | [] => c
        | k :: rest =>
          let c1 : Cell := { c with arr := { c.arr with inbox := rest } }
          if d.expects c.arr.orbit rg k then (c1.takeTotals i p rg k now).drainInbox now fuel
          else c1.abortAt i abOrbit now

/-! Start (R93, R99, R108, R109). -/

/-- R451: the first of some reads of the own slice, engine, offset and length, that meets an uncorrectable error: its engine, and the address of
the unit. -/
def State.firstBad (s : State) (g : CellId) (rs : List SliceRun) : Byte × Nat :=
  let m := (s.cell g).slice
  match rs.find? fun r => m.anyBad sramUnit r.off r.len with
  | some r => (r.eng, sliceAddr g (max r.off (m.firstBad sramUnit r.off r.len * sramUnit)))
  | none => (2, 0)

/-- R440, R110, R451: one of the reads `rs` of a pass met an uncorrectable error: the pass aborts with cause ECC, and a record is raised. -/
def State.passEcc (s : State) (g : CellId) (i : Nat) (rs : List SliceRun) : State :=
  let x := s.firstBad g rs
  (s.raise g mechSram actPassAbort 1 x.1 2 x.2).updCell g fun c => c.abortAt i abEcc s.clk.cc

/-- R87: a pass without steps takes its C input as it begins, two cc before its start or as soon after as the steps before it allow (log 69). -/
def State.startEmpty (s : State) (g : CellId) (i : Nat) (p : Pass) : State :=
  let d := p.desc
  let l := (List.range d.rowGroups).map fun rg => s.initTotals g d rg
  if l.any Prod.snd then s.passEcc g i ((List.range d.rowGroups).flatMap d.cRuns)
  else
    let acc (x : List FRes × Bool) : RgAcc :=
      { init := if d.receives then none else some (x.1.map FRes.bits), chunks := [], cur := [], hop := 0 }
    let p1 := { p with stage := .stepped, groups := l.map acc, flags := orFlags (l.flatMap fun x => x.1.map FRes.flags),
                       staged := p.start + 12 }
    s.updCell g fun c => (c.setPass i p1).drainInbox s.clk.cc 5

/-- R108, R118: two staging buffers and two sides of the chunk-sum buffer: behind a pass that waits for totals only one more may
step. -/
def Arr.sidesFull (a : Arr) : Bool :=
  2 ≤ (a.passes.filter fun p => p.stage != .queued).length && (match a.passes with | p :: _ => p.waits | [] => false)

/-- R99: cc before its start in which a pass begins: that of its first read. -/
def Desc.lead (d : Desc) : Nat := if d.fp32 || d.steps = 0 then 2 else 1

/-- R99, R109: the queued pass that may begin: no other steps, HOLD is 0, and there is a buffer for it. -/
def Arr.startable (a : Arr) : Option (Nat × Pass) :=
  if a.hold || a.stepper.isSome || a.sidesFull then none else a.findPass fun p => p.stage == .queued

/-- R99: the first broadcast cc that the issue of a pass and the steps before it allow. -/
def Arr.startCc (a : Arr) (p : Pass) : Nat := max (p.issue + 6) a.feederFree

/-- R99: cc that a pass which begins in cc `now` needs at least to its start: two for an FP32 panel of which nothing has been read (log 69). -/
def Pass.needs (p : Pass) (at' : Nat) : Nat := if p.desc.fp32 && p.desc.steps ≠ 0 && !(p.half.any fun h => h.at' == at') then 2 else 1

/-- R93, R99: the queued pass begins, if its first read is due in this cc. -/
def State.beginPass (s : State) (g : CellId) : State :=
  let a := (s.cell g).arr
  match a.startable with
  | none => s
  | some (i, p) =>
    let d := p.desc
    let now := s.clk.cc
    let t := a.startCc p
    if now + d.lead < t then s
    else
      let start := max t (now + p.needs t)
      let p1 := { p with start := start, due := start }
      if d.steps = 0 then
        (s.startEmpty g i p1).updCell g fun c => { c with arr := { c.arr with feederFree := start } }
      else
        let p2 := { p1 with stage := .stepping, groups := List.replicate d.rowGroups .empty }
        s.updCell g fun c => (c.setPass i p2).drainInbox now 5

/-- R93, R99: the queued passes that begin in this cc; behind one without steps another may. -/
def State.passStart (s : State) (g : CellId) : State := ((s.beginPass g).beginPass g).beginPass g

/-- R99: the queued pass with steps that comes next, and its start, where the steps before it end before cc `t`; passes without steps start in
between. -/
def nextSteps (t : Nat) : Nat → List Pass → Option (Nat × Pass × Nat)
  | _, [] => none
  | i, p :: rest =>
    if p.stage != .queued then nextSteps t (i + 1) rest
    else
      let start := max (p.issue + 6) t
      if p.desc.steps = 0 then nextSteps start (i + 1) rest else some (i, p, start)

/-- R81, R99: behind the last step of a pass, whose operands have been read, the first part of the next pass's FP32 panel is read two cc before
its start. -/
def State.readAhead (s : State) (g : CellId) : State :=
  let a := (s.cell g).arr
  match a.stepper with
  | none => s
  | some (_, q) =>
    match (if q.step + 1 = q.desc.steps then q.ready else none) with
    | none => s
    | some r =>
      match nextSteps (r.at' + q.desc.period) 0 a.passes with
      | none => s
      | some (i, p, start) =>
        if p.desc.fp32 && start == s.clk.cc + 2 then s.updCell g fun c => c.setPass i { p with half := some (s.readHalf g p.desc 0 start) }
        else s

/-! Steps (R96 to R98, R104 to R107). -/

/-- R105: the wrong values of a failure laid over those computed. -/
def upsetValue (u : StepUpset) (i n v : Nat) : Nat :=
  match u.wrong.find? fun x => x.1 == i && x.2.1 == n with
  | some x => x.2.2.toNat
  | none => v

/-- R85: what one step leaves in its row group: chunk sums, ended chunks. `out` holds the step's v values; a chunk's sum stands at the
end of cc `done` (R98). -/
def RgAcc.step (acc : RgAcc) (d : Desc) (st : Nat) (out : List FRes) (done : Nat) : RgAcc × FFlags :=
  let r := Rnd.plain (BitVec.ofNat 2 d.rnd)
  let ks := st % d.ksteps
  let fresh := ks = 0 || (!d.int && ks * d.kg % d.ch = 0)
  let old (x : Nat) : Nat := if fresh then 0 else acc.cur.getD x 0
  let sums := (List.range out.length).map fun x =>
    let v := out.getD x ⟨0, 0⟩
    if d.int then ⟨(old x + v.bits) % 2 ^ 32, 0⟩ else acc32 r ⟨old x, 0⟩ v
  let last := ks + 1 = d.ksteps || (!d.int && (ks + 1) * d.kg % d.ch = 0)
  let bitsOf := sums.map FRes.bits
  (if last then { acc with chunks := acc.chunks ++ [bitsOf], cur := [], ends := acc.ends ++ [done] } else { acc with cur := bitsOf },
   orFlags (sums.map FRes.flags))

/-- No failure. -/
def noUpset : StepUpset := { wrong := [], residue := false }

/-- R85: the v values of a step in output order of its row group, with what failing cubes put in their place. -/
def Desc.stepOut (d : Desc) (o : StepOps) (u : StepUpset) : List FRes :=
  let raw := (List.range o.a.length).flatMap fun m => (List.range d.n).map fun n => d.stepV o m n
  (List.range raw.length).map fun x =>
    let v := raw.getD x ⟨0, 0⟩
    (⟨upsetValue u (x / d.n) (x % d.n) v.bits, v.flags⟩ : FRes)

/-- R105: whether a comparison of the step fails. -/
def Desc.stepFails (d : Desc) (o : StepOps) (out : List FRes) : Bool :=
  let vAt (m n : Nat) : Nat := (out.getD (m * d.n + n) ⟨0, 0⟩).bits
  (List.range (ceilDiv d.n 16)).any fun ar => (List.range o.a.length).any fun m => d.checkFails o vAt ar m

/-- R98, R105 to R107: the pass after the step whose operands are `r`. Drain cycle 12 of a step lies 11 cc after its broadcast, and P − 1
more in an FP32 pass. -/
def Pass.after (p : Pass) (r : StepRead) : Pass :=
  let d := p.desc
  let u := p.upset.getD noUpset
  let out := d.stepOut r.ops u
  let check := r.at' + 11 + (d.period - 1)
  let fails := d.stepFails r.ops out
  let rg := p.step / d.ksteps
  let acc0 := p.groups.getD rg .empty
  let acc1 := if d.opens p.step then { acc0 with init := some (r.ini.map FRes.bits) } else acc0
  let x := acc1.step d p.step out (check + 1)
  let due := r.at' + d.period
  let ends := p.step + 1 == d.steps
  let acc := if u.fold && !d.int then { x.1 with foldBad := true } else x.1
  { p with groups := p.groups.set rg acc, flags := p.flags ||| (x.2 ||| orFlags (r.ini.map FRes.flags)), step := p.step + 1, due := due,
           stall := p.stall + (r.at' - p.due), ready := none, half := none, upset := none
           fail := p.fail.or (if fails then some (check, abChecksum) else if u.residue && !d.int then some (check, abResidue) else none)
           stage := if ends then .stepped else .stepping, staged := if ends then due + 12 else p.staged }

/-- R98, R141: the step whose operands have been read, in its broadcast cc; its slice leaves the feed queue at the end of the cc. -/
def State.doStep (s : State) (g : CellId) : State :=
  match (s.cell g).arr.stepper with
  | none => s
  | some (i, p) =>
    match p.ready with
    | none => s
    | some r =>
      if s.clk.cc < r.at' then s
      else
        let p1 := p.after r
        let why : Byte := if p1.waits then 0x12 else 0
        s.updCell g fun c =>
          let c1 := ((c.setPass i p1).arraysTo p.desc p1.due why).engine 7 (p1.due + 13) why
          { c1 with arr := { c1.arr with feederFree := p1.due, pop := if p.desc.src then some r.at' else c1.arr.pop } }

/-- R80, R81, R99: the reads of this cc for the stepping pass's next step: in the cc before its broadcast, and for an FP32 panel's first
part in the cc before that. -/
def State.readStep (s : State) (g : CellId) : State :=
  let c := s.cell g
  let now := s.clk.cc
  match c.arr.stepper with
  | none => s
  | some (i, p) =>
    match (if p.ready.isSome then none else c.broadcastAt p) with
    | none => s
    | some b =>
      let d := p.desc
      if b ≤ now + 1 then
        let half := match p.half with | some h => h | none => s.readHalf g d p.step (now + 1)
        let feed := if d.src then c.nextSlice.map fun x => x.bits.toNat else none
        let o := s.stepOps g d feed half p.step
        let ini := if d.opens p.step then s.initTotals g d (p.step / d.ksteps) else ([], false)
        if o.2 || ini.2 then s.passEcc g i (d.runs p.step)
        else (s.correctStep g d p.step).updCell g fun c =>
          c.setPass i { p with ready := some { at' := now + 1, ops := o.1, ini := ini.1 } }
      else if d.fp32 && b == now + 2 && !(p.half.any fun h => h.at' == b) then
        s.updCell g fun c => c.setPass i { p with half := some (s.readHalf g d p.step b) }
      else s

/-- R96, R459: whether the stepping pass bubbles in cc `now`: no operands have been read for a broadcast in it. -/
def Pass.bubbles (p : Pass) (now : Nat) : Bool := p.stage == .stepping && p.ready.isNone && decide (p.due ≤ now)

/-- R96, R459: the arrays show why the stepping pass bubbles: an empty feed queue, or a fold. -/
def State.bubbleMoment (s : State) (g : CellId) : State :=
  let c := s.cell g
  match c.arr.stepper with
  | some (_, p) =>
    if p.bubbles s.clk.cc then
      s.updCell g fun c => c.arraysTo p.desc 0 (if p.desc.src && c.nextSlice.isNone then 0x10 else 0x11)
    else s
  | none => s

/-! Aborts (R97, R106, R107). -/

/-- R106, R107: a failed check aborts the pass and raises a record. -/
def State.passFails (s : State) (g : CellId) (i : Nat) (cause : Byte) : State :=
  (s.raise g (if cause = abResidue then mechResidue else mechChecksum) actPassAbort 3 7 cause.toNat 0).updCell g fun c =>
    c.abortAt i cause s.clk.cc

/-- R106, R107: the oldest pass whose check has failed aborts in its cc. -/
def State.failMoment (s : State) (g : CellId) : State :=
  match (s.cell g).arr.findPass fun p => p.fail.any fun f => decide (f.1 ≤ s.clk.cc) with
  | some (i, p) => s.passFails g i (p.fail.getD (0, abChecksum)).2
  | none => s

/-- R97: whether a pass reaches the limit as things stand: it waits, or no broadcast comes before. -/
def Cell.stallsOut (c : Cell) (p : Pass) : Bool := p.waits || (p.ready.isNone && (c.broadcastAt p).isNone)

/-- R97: the passes that reach the limit in this cc or before abort with cause STALL. -/
def State.limitMoment (s : State) (g : CellId) : State :=
  let c := s.cell g
  match c.arr.findPass fun p => (p.stage == .stepping || p.waits) && c.stallsOut p
      && decide (p.limitAt c.arr.stallLimit.toNat ≤ s.clk.cc) with
  | some (i, _) => (s.raise g mechStall actPassAbort 0 2 3 0).updCell g fun c => c.abortAt i abStall s.clk.cc
  | none => s

/-! Commit (R88, R99, R108, R117). -/

/-- R85: the totals of a row group, before any output rounding. -/
def RgAcc.totals (acc : RgAcc) (d : Desc) : List FRes :=
  let ini := acc.init.getD []
  (List.range ini.length).map fun x => d.total (ini.getD x 0) acc.chunks x

/-- R88: round a pass's totals in output order; the state carries the generator. -/
def roundAll (d : Desc) (ts : List Nat) (srd : Word32) : List FRes × Word32 :=
  ts.foldl (fun a t => let r := d.outOf t a.2; (a.1 ++ [r.1], r.2)) ([], srd)

/-- R49, R88: the bytes of a row of packed outputs, over the bytes that lie there (log 13). -/
def packRow (w : Nat) (els : List Nat) (old : List Byte) : List Byte :=
  let n := els.length * w
  let v := ofElems w els.length fun i => els.getD i 0
  leBytes (v + leNat old / 2 ^ n * 2 ^ n) old.length

/-- R88, R99: rows of row group `rg` go to the slice in this cc, over the bytes that lie there. -/
def State.writeRows (s : State) (g : CellId) (d : Desc) (rg : Nat) (outs : List Nat) : State :=
  let w := codeWidth d.ofmt
  (List.range (d.rowsOf rg)).foldl (fun s i =>
    let o := d.oOff + (4 * rg + i) * d.oStr
    let old := s.readOwn g .slice o (packedBytes d.ofmt d.n) (s.clk.cc + 1) none
    let ps : PendStore :=
      { by' := .pass, store := .slice, off := o, bytes := packRow w ((outs.drop (i * d.n)).take d.n) old, vis := s.clk.cc }
    s.updCell g fun c => c.queueStore ps) s

/-- R120, R121: one packet per row group, in ascending order. -/
def State.sendTotals (s : State) (g : CellId) (d : Desc) (groups : List RgAcc) (ts : List (List Nat)) : State :=
  (List.range groups.length).foldl (fun s rg =>
    let hop := if d.orb = roleFirst then 0 else (groups.getD rg .empty).hop + 1
    let k : OrbitPkt :=
      { rows := BitVec.ofNat 4 (2 ^ d.rowsOf rg - 1), rg := BitVec.ofNat 6 rg, lastRg := rg + 1 == groups.length,
        pidx := BitVec.ofNat 16 d.pidx, tag := BitVec.ofNat 16 d.tag, kind := if d.int then 2 else 1, n := BitVec.ofNat 7 d.n,
        hop := BitVec.ofNat 8 hop, dstg := 0, srcg := g, srcMod := 0, words := (ts.getD rg []).map w64 }
    s.sendOrbit g true k) s

/-- R108, R111: a commit's end: flags, ARR_DONE. -/
def Cell.committed (c : Cell) (p : Pass) (fl : FFlags) (cend : Nat) : Cell :=
  { c with fp := { c.fp with drn := c.fp.drn ||| fl }
           arr := { c.arr with passes := c.arr.passes.tail, done := c.arr.done + 1,
                               lastCommitted := p.pidx, commitFree := cend + 1 } }

/-- R85: a pass's totals, one list for each row group. -/
def Pass.totals (p : Pass) : List (List FRes) := p.groups.map fun acc => acc.totals p.desc

/-- R69: the flags of a pass before its outputs are rounded. -/
def Pass.sumFlags (p : Pass) : FFlags := p.flags ||| orFlags (p.totals.flatMap fun l => l.map FRes.flags)

/-- R99: cc of a commit's writes. -/
def Desc.commitCc (d : Desc) : Nat := if d.sends || d.m = 0 || d.n = 0 then 0 else ceilDiv d.m 4

/-- R99: the first cc in which the oldest pass may begin to commit; none where it is not staged or lacks totals. -/
def Arr.commitAt (a : Arr) : Option Nat :=
  match a.passes with
  | p :: _ => if p.stage == .stepped && !p.waits then some (max (p.staged + 1) a.commitFree) else none
  | [] => none

/-- R99, R108: the oldest pass begins its commit in this cc, if it may. One that sends its totals, or has no outputs, is committed. -/
def State.commitStart (s : State) (g : CellId) : State :=
  match (s.cell g).arr.passes, (s.cell g).arr.commitAt with
  | p :: _, some t =>
    let now := s.clk.cc
    let d := p.desc
    if now < t then s
    else if d.sends then
      (s.sendTotals g d p.groups (p.totals.map fun l => l.map FRes.bits)).updCell g fun c =>
        (c.committed p p.sumFlags (now - 1)).engine 7 (now + 1) 0
    else if d.commitCc = 0 then s.updCell g fun c => (c.committed p p.sumFlags (now - 1)).engine 7 now 0
    else
      let p1 := { p with stage := .committing, cend := now + d.commitCc - 1, crow := 0, endFlags := p.sumFlags }
      s.updCell g fun c => (c.setPass 0 p1).engine 7 (now + d.commitCc) 0
  | _, _ => s

/-- R59, R88, R99, R108: the committing pass rounds and writes its next row group; its SR draws are made here, from the generator as it stands in
this cc (log 70). -/
def State.commitRow (s : State) (g : CellId) : State :=
  match (s.cell g).arr.passes with
  | p :: _ =>
    let d := p.desc
    if p.stage == .committing && decide (p.crow < d.commitCc) then
      let ts := (p.groups.getD p.crow .empty).totals d
      let r := roundAll d (ts.map FRes.bits) (s.cell g).fp.srd
      let p1 := { p with crow := p.crow + 1, endFlags := p.endFlags ||| orFlags (r.1.map FRes.flags) }
      (s.writeRows g d p.crow (r.1.map FRes.bits)).updCell g fun c =>
        { c.setPass 0 p1 with fp := { c.fp with srd := r.2 } }
    else s
  | [] => s

/-- R99, R108: what the drain commits in this cc; behind passes that write no outputs the next one begins in the same cc. -/
def State.commitMoment (s : State) (g : CellId) : State := (((s.commitStart g).commitStart g).commitStart g).commitRow g

/-- R99, R108: the commit whose last write was in the cc before has ended. -/
def Cell.commitEnd (c : Cell) (now : Nat) : Cell :=
  match c.arr.passes with
  | p :: _ => if p.stage == .committing && decide (p.cend < now) then c.committed p p.endFlags p.cend else c
  | [] => c

/-- R141: the slice of the broadcast of the cc before has left the feed queue. -/
def Cell.popFeed (c : Cell) (now : Nat) : Cell :=
  if c.arr.pop.any fun b => decide (b < now) then
    { c with vec := { c.vec with feed := c.vec.feed.tail }, arr := { c.arr with pop := none } }
  else c

/-! One cc. -/

/-- What the pass engine of cell `g` does in this cc. -/
def State.passMoment (s : State) (g : CellId) : State :=
  if (s.cell g).arr.passes.isEmpty then s
  else ((((((((s.failMoment g).limitMoment g).doStep g).bubbleMoment g).passStart g).readStep g).readAhead g).commitMoment g)

/-- cc after cc `now` in which the pass engine next does something by itself. -/
def Cell.passEvents (c : Cell) (now : Nat) : List Nat :=
  let a := c.arr
  let limit := a.stallLimit.toNat
  let step (p : Pass) : List Nat :=
    match p.ready with
    | some r => [r.at']
    | none =>
      match c.broadcastAt p with
      | some b => if p.desc.fp32 && !(p.half.any fun h => h.at' == b) then [b - 2, b - 1] else [b - 1]
      | none => []
  (a.passes.flatMap fun p =>
    (match p.fail with | some f => [f.1] | none => [])
      ++ (if p.stage == .stepping then (if p.ready.isNone && decide (now < p.due) then [p.due] else []) ++ step p else [])
      ++ (if (p.stage == .stepping || p.waits) && c.stallsOut p then [p.limitAt limit] else [])
      ++ (if p.stage == .committing then [p.cend + 1, p.cend + 1 - (p.desc.commitCc - p.crow)] else []))
    ++ (match a.startable with | some (_, p) => [a.startCc p - p.desc.lead] | none => [])
    ++ (match a.commitAt with | some t => [t] | none => [])
    ++ (match a.pop with | some b => [b + 1] | none => [])

end Sys2Proof.Machine
end

