-- ==== Sys2Proof/Machine/Router.lean ====
section
/-! DEFINITION. Routers of the fabric (R13 to R22): links, routes, virtual channels, and the arbitration by which flits leave, hc by hc. -/

namespace Sys2Proof.Machine

/-- R14: row of a cell. -/
def rowOf (g : CellId) : Nat := bits g.toNat 3 3

/-- R14: column of a cell. -/
def colOf (g : CellId) : Nat := bits g.toNat 0 3

/-- R13: half of a cell: north 0, south 1. -/
def halfOf (g : CellId) : Nat := tileOf g / 2

/-- R13: the hub-facing row of a cell's tile. -/
def hubRow (g : CellId) : Nat := if halfOf g = 0 then 7 else 0

/-- R474: the number of an output or input. -/
def dirNat : Dir → Nat
  | .north => 0
  | .south => 1
  | .east => 2
  | .west => 3
  | .edge => 4
  | .cell => 5

/-- The output toward row `t`. -/
def vertical (r : CellId) (t : Nat) (done : Dir) : Dir :=
  if rowOf r < t then .south else if t < rowOf r then .north else done

/-- R18: the output by which router `r` sends a flit for an endpoint: within a half along the row first, over the boundary link at its
edge, then along the column; to the hub and to the other half along the column to the hub link. -/
def routeDir (r : CellId) (dst : Endpoint) : Dir :=
  match dst with
  | .hub => vertical r (hubRow r) .edge
  | .cell d =>
    if halfOf r ≠ halfOf d then vertical r (hubRow r) .edge
    else
      let x := colOf r + 8 * (tileOf r % 2)
      let y := colOf d + 8 * (tileOf d % 2)
      if x < y then if x = 7 then .edge else .east
      else if y < x then if x = 8 then .edge else .west
      else vertical r (rowOf d) .cell

/-- R16: the far end of the link at an output of router `r`, or of the one at an input: the neighbour's router, and its output or input there.
Output 4 is the boundary link here. The hub's links and the cell interface have none. -/
def farEnd (r : CellId) (o : Dir) : Option (CellId × Dir) :=
  match o with
  | .north => if rowOf r ≠ 0 then some (r - 8, .south) else none
  | .south => if rowOf r ≠ 7 then some (r + 8, .north) else none
  | .east => if colOf r ≠ 7 then some (r + 1, .west) else none
  | .west => if colOf r ≠ 0 then some (r - 1, .east) else none
  | .edge =>
    if tileOf r % 2 = 0 && colOf r = 7 then some (r + 57, .edge)
    else if tileOf r % 2 = 1 && colOf r = 0 then some (r - 57, .edge)
    else none
  | .cell => none

/-- R16: whether router `r` has a hub link. -/
def hasHubLink (r : CellId) : Bool := rowOf r == hubRow r

/-- R16: whether router `r` has a link at an output; output 4 is the boundary or the hub link. -/
def hasLink (r : CellId) (o : Dir) : Bool := o == .cell || (farEnd r o).isSome || (o == .edge && hasHubLink r)

/-- R18: the router in whose column the crossbar's flits for a cell enter its tile, and those from it leave. -/
def hubRouter (d : CellId) : CellId := BitVec.ofNat 8 (tileOf d * 64 + hubRow d * 8 + colOf d)

/-- R18, R19: whether a flit passes through the hub: it enters or leaves there, or its ends lie in different halves. -/
def viaHub (f : Flit) : Bool :=
  match f.src, f.dst with
  | .cell a, .cell b => halfOf a != halfOf b
  | _, _ => true

/-- R19, R474: the virtual channel of a flit. -/
def channelOf (f : Flit) : Nat := 2 * clsNat f.cls + b2n (viaHub f)

/-- R21: buffer depth of the receiver at an output, or of an input. The cell interface's is that of the mesh (log 28). -/
def linkDepth (o : Nat) : Nat := if o = 4 then 16 else 8

/-- Flits waiting at an input on a channel. -/
def Router.buf (x : Router) (i v : Nat) : List Flit := x.bufs.get [] (8 * i + v)

/-- Credits in use at an output on a channel. -/
def Router.inUse (x : Router) (o v : Nat) : Nat := x.used.get 0 (8 * o + v)

/-- R20, R21: the inputs that contend for output `o` in class `k`: pairs of input and channel whose oldest flit goes there with a
credit. -/
def Router.contend (x : Router) (r : CellId) (o k : Nat) : List (Nat × Nat) :=
  (List.range 6).flatMap fun i => [2 * k, 2 * k + 1].filterMap fun v =>
    match x.buf i v with
    | f :: _ => if dirNat (routeDir r f.dst) = o && x.inUse o v < linkDepth o then some (i, v) else none
    | [] => none

/-- R20: the round-robin choice at output `o`: the first input from the pointer on. Of the two virtual channels of one input and class, where
R20 gives no order, the one for cell-to-cell flits goes first (log 62). -/
def Router.pick (x : Router) (o : Nat) (l : List (Nat × Nat)) : Option (Nat × Nat) :=
  l.foldl (fun a c =>
    let key (e : Nat × Nat) : Nat := (e.1 + 6 - x.rr.get 0 o % 6) % 6
    match a with | none => some c | some b => if key c < key b then some c else some b) none

/-- R20: the class that wins output `o`: control over comet over tide, and tide in the 16th hc over comet. -/
def Router.winner (x : Router) (r : CellId) (o : Nat) : Option (Nat × Nat) :=
  match x.pick o (x.contend r o 0) with
  | some c => some c
  | none =>
    let tide := x.pick o (x.contend r o 2)
    match x.pick o (x.contend r o 1) with
    | none => tide
    | some c => if 15 ≤ x.tideWait.get 0 o && tide.isSome then tide else some c

/-- The input of a number. -/
def dirOf (i : Nat) : Dir :=
  if i = 0 then .north else if i = 1 then .south else if i = 2 then .east else if i = 3 then .west else if i = 4 then .edge else .cell

/-- R18: whether a flit sent at output `o` still has a receiver in the fabric: not one for the cell interface, which takes it at once. -/
def staysOut (o : Nat) : Bool := o != 5

/-- R21: whether the credit of a flit that leaves input `i` goes back to another router. -/
def fromRouter (r : CellId) (i v : Nat) : Bool := (farEnd r (dirOf i)).isSome && !(i == 4 && v % 2 == 1)

/-- R20, R21: one hc of output `o`: at most one flit leaves; its input's buffer is free again. The boundary and the hub link of a corner
router, which R474 numbers as one output, are arbitrated as one (log 72). -/
def Router.sendOne (x : Router) (r : CellId) (o : Nat) : Router :=
  match x.winner r o with
  | none => x
  | some (i, v) =>
    match x.buf i v with
    | [] => x
    | f :: rest =>
      let wait := if v / 2 = 2 then 0 else if (x.contend r o 2).isEmpty then 0 else x.tideWait.get 0 o + 1
      let w := x.wire.get [] (8 * o + v)
      { x with bufs := x.bufs.set (8 * i + v) rest
               wire := if staysOut o then x.wire.set (8 * o + v) (w ++ [f]) else x.wire
               used := x.used.set (8 * o + v) (x.inUse o v + 1)
               freed := if fromRouter r i v then x.freed.set (8 * i + v) (x.freed.get 0 (8 * i + v) + 1) else x.freed
               rr := x.rr.set o ((i + 1) % 6), tideWait := x.tideWait.set o wait }

/-- R17, R20: one hc of a router: every output sends at most one flit. The outputs are served in turn, so that one input may give flits to
several of them in one hc (log 72). -/
def Router.turn (x : Router) (r : CellId) : Router := (List.range 6).foldl (fun x o => x.sendOne r o) x

/-- At most `n` hc of a router. -/
def Router.turns (x : Router) (r : CellId) : Nat → Router
  | 0 => x
  | n + 1 => (x.turn r).turns r n

/-- Flits waiting in a router. -/
def Router.waiting (x : Router) : Nat := (x.bufs.map fun e => e.2.length).sum

/-- R17, R20: `k` hc of router `r`. In an hc in which nothing can leave nothing changes, nor in those after it. -/
def Router.run (x : Router) (r : CellId) (k : Nat) : Router := x.turns r (min k x.waiting)

end Sys2Proof.Machine
end

