-- ==== Sys2Proof/Machine/SnapEntry.lean ====
section
/-! DEFINITION. What a snapshot says (R473, R474): its header and its entries; its writing (R464); and a Survey that reads its entries while time
passes (R471, R472). -/

namespace Sys2Proof.Machine

/-! Entries (R474). Each is a list of doublewords. -/

/-- R474: why command `c` is held. -/
def State.holdCode (s : State) (c : Cmd) : Nat :=
  let g := s.group (s.groupNo c)
  if c.start.isSome && !c.released then 2
  else if hdrFence c.hdr && s.disp.cmds.any (fun x => x.queue == c.queue && x.id < c.id) then 3
  else if c.isRun && g.down then 4
  else if c.isRun && g.orbit.any fun m => 4 ≤ s.ringsAt m then 5
  else 0

/-- R474: HOLD of a queue: that of its oldest packet that waits. -/
def State.queueHold (s : State) (q : QueueId) : Nat :=
  match s.disp.cmds.find? fun c => c.queue == q && c.stage == .admitted && !c.over with
  | some c => s.holdCode c
  | none =>
    match (s.queue q).cur with
    | some k => if k.mode == .waitSlot then 1 else if k.left ≠ 0 then 6 else 0
    | none => 0

/-- R474: stamp of a queue's oldest unadmitted header. -/
def State.headerStamp (s : State) (q : QueueId) : Nat :=
  match s.disp.cmds.find? fun c => c.queue == q && c.stage == .accepted with
  | some c => c.at'.toNat % 2 ^ 40
  | none => match (s.queue q).cur with | some k => k.at'.toNat % 2 ^ 40 | none => 0

/-- R474: entry of queue `q`. -/
def State.queueEntry (s : State) (q : QueueId) : List Nat :=
  let x := s.queue q
  [x.statWord, x.credWord, x.pos % 2 ^ 32 + s.queueHold q * 2 ^ 32, s.headerStamp q]

/-- R474: the RUNs held for group `n`. -/
def State.heldFor (s : State) (n : Nat) : List Cmd :=
  s.disp.cmds.filter fun c => c.isRun && c.stage == .admitted && s.groupNo c == n

/-- R474: entry of group `n`. -/
def State.groupEntry (s : State) (n : Nat) : List Nat :=
  let g := s.group n
  let held := s.heldFor n
  let first := held.foldl (fun a c => match a with | none => some c | some b => if c.order < b.order then some c else some b) none
  [(g.reg 0).getD 0, (g.reg 8).getD 0, (g.reg 0x10).getD 0, (g.reg 0x18).getD 0, (g.reg 0x20).getD 0, held.length % 2 ^ 16,
    match first with | some c => c.queue.toNat + hdrSeq c.hdr * 2 ^ 32 | none => 0, 0]

/-- R474: entry of cell `g`. -/
def State.cellEntry (s : State) (g : CellId) : List Nat :=
  let c := s.cell g
  let rd (off : Nat) : Nat := (s.cellRegRead g off).getD 0
  [rd 0, c.pil.pc.toNat, rd 0xA00, rd 0xA10,
    ((c.trc.engine 0).reason s.clk.cc).toNat + c.pil.remotes.length % 16 * 2 ^ 8 + c.rings.length % 8 * 2 ^ 12
      + c.id.frz.toNat % 256 * 2 ^ 16 + c.trc.stamp.toNat * 2 ^ 24,
    rd 0x408, rd 0x420, rd 0x410, rd 0x600, rd 0x608, rd 0x618, rd 0xC00, rd 0xC08, rd 0x110, rd 0x428, rd 0x1008]
    ++ (List.range 8).flatMap fun e => [(c.trc.engine e).busy, (c.trc.engine e).stall]

/-- R474: entry of router `g`, as bytes. -/
def State.routerEntry (s : State) (g : CellId) : List Byte :=
  let x := (s.cell g).router
  ((List.range 6).flatMap fun o => (List.range 6).map fun v =>
      BitVec.ofNat 8 (if hasLink g (dirOf o) then linkDepth o - x.inUse o v else 0))
    ++ ((List.range 6).map fun v => BitVec.ofNat 8 ((List.range 6).map fun i => (x.buf i v).length).sum)
    ++ List.replicate 22 0

/-- R322, R474: writes of port `p`'s host that have bytes in the rings of its queues, which the hub's ingress buffer holds (log 81). -/
def State.waitingTlps (s : State) (p : PortId) : Nat :=
  (s.queues.map fun e => if e.2.port == some p then e.2.arrived.length else 0).sum

/-- R474: commands of port `p` that have ended and have not completed. -/
def State.waitingComps (s : State) (p : PortId) : Nat := (s.disp.cmds.filter fun c => c.port == p && c.over).length

/-- R474: entry of PCIe port `p`. -/
def State.pcieEntry (s : State) (p : Nat) : List Nat :=
  let i : PortId := BitVec.ofNat 1 p
  [(s.portReg i 0x10).getD 0, (s.portReg i 0).getD 0, s.waitingTlps i, s.waitingComps i]

/-- R474: entry of optical port `p`. -/
def State.opticalEntry (s : State) (p : Nat) : List Nat :=
  let x := s.opt.port (BitVec.ofNat 3 p)
  [(x.reg 0).getD 0, (x.reg 8).getD 0, x.nextSeq.toNat + (x.expect - 1).toNat * 2 ^ 12 + x.replay.length % 128 * 2 ^ 24,
    x.credits 0 + x.credits 1 * 2 ^ 16 + x.credits 2 * 2 ^ 32]

/-- Doublewords as bytes, padded to a length. -/
def padDw (l : List Nat) (n : Nat) : List Byte := ((l.flatMap fun w => leBytes w 8) ++ List.replicate n 0).take n

/-- R473: the Ephemeris of a snapshot's header. -/
def State.ephBytes (s : State) : List Byte :=
  (List.range 8).flatMap fun p => [0, 8, 0x10].flatMap fun off => leBytes ((s.ephReg p off).getD 0) 8

/-- R473: the header. -/
def State.snapHeader (s : State) (h : SnapHead) : List Byte :=
  leBytes 0x50414E53 4 ++ leBytes h.kind 1 ++ leBytes h.flags 1 ++ leBytes h.smear 2 ++ leBytes h.t0.toNat 8 ++ leBytes h.t1.toNat 8
    ++ leBytes s.opt.modnum.toNat 2 ++ leBytes h.unit 2 ++ leBytes h.arb.toNat 4 ++ List.replicate 32 0 ++ h.eph

/-- R473: how many entries stand in front of the channel state: queues, groups, cells, routers and ports. -/
def snapCount : Nat := 1610

/-- R473: entry `n`: its offset, and its bytes. `auto` is the entry of an automatic Survey's cell. -/
def State.snapItem (s : State) (auto : Option (CellId × List Byte)) (n : Nat) : Nat × List Byte :=
  if n < 1024 then (0x100 + 32 * n, padDw (s.queueEntry (BitVec.ofNat 10 n)) 32)
  else if n < 1088 then (0x8100 + 64 * (n - 1024), padDw (s.groupEntry (n - 1024)) 64)
  else if n < 1344 then
    let g : CellId := BitVec.ofNat 8 (n - 1088)
    (0x9100 + 256 * (n - 1088),
      match auto with
      | some (h, e) => if h = g then e else padDw (s.cellEntry g) 256
      | none => padDw (s.cellEntry g) 256)
  else if n < 1600 then (0x19100 + 64 * (n - 1344), s.routerEntry (BitVec.ofNat 8 (n - 1344)))
  else if n < 1602 then (0x1D100 + 256 * (n - 1600), padDw (s.pcieEntry (n - 1600)) 256)
  else (0x1D100 + 256 * (n - 1600), padDw (s.opticalEntry (n - 1602)) 256)

/-- R473: offset of the channel-state section. -/
def chanOff : Nat := 0x20000

/-! Writing (R464). -/

/-- R464: records that `n` bytes of a snapshot count for. -/
def snapRecords (n : Nat) : Nat := (n + 31) / 32

/-- R464: whether the present window has room for `n` bytes of a snapshot. -/
def State.obsFits (s : State) (n : Nat) : Bool := (s.obs.roll s.clk.hc).spent + snapRecords n ≤ obsBudget

/-- R464: write snapshot bytes at an offset of the area, each grain unless it is fenced; the budget goes to it first. Whether a grain was
refused. -/
def State.snapWrite (s : State) (off : Nat) (bs : List Byte) : State × Bool :=
  let base := s.obs.snapArea + off
  let refused := s.fencedRange (base / 256 * 256) (base % 256 + bs.length)
  let s1 := if !refused then s.hubHbm base bs
    else (List.range bs.length).foldl (fun s i =>
      if s.hbm.fencedAt (base + i) then s else s.hubHbm (base + i) [bs.getD i 0]) s
  let o := s1.obs.roll s.clk.hc
  ({ s1 with obs := { o with spent := o.spent + (snapRecords bs.length : Nat) } }, refused)

/-- R463, R464: write snapshot bytes, if observation writes are enabled. -/
def State.snapPut (s : State) (off : Nat) (bs : List Byte) : State × Bool := if s.obs.en then s.snapWrite off bs else (s, false)

/-- R464: a write of the running Survey or of the last stop was refused. -/
def State.snapRefused (s : State) (bad : Bool) : State := { s with stops := { s.stops with partial' := s.stops.partial' || bad } }

/-! Survey (R471, R472). -/

/-- R471: the Survey reads its next entry and writes it. -/
def State.surveyRead (s : State) (r : SurveyRun) : State :=
  let x := s.snapItem r.auto r.pos
  let w := s.snapPut x.1 x.2
  let r1 : SurveyRun := { r with head := { r.head with t1 := s.time.track }, pos := r.pos + 1, bad := r.bad || w.2 }
  State.snapRefused { w.1 with stops := { w.1.stops with survey := some r1 } } w.2

/-- R464, R471: the Survey reads the entries that are due, one for each hc since it began, while the budget lasts; `n` bounds them. The hub that
has stopped, and a frozen one, reads none (R446, R472). -/
def State.surveyCatch (s : State) : Nat → State
  | 0 => s
  | n + 1 =>
    match s.stops.survey with
    | none => s
    | some r =>
      if s.clk.frozen || s.clk.stopped || snapCount ≤ r.pos || s.clk.hc < r.start + r.pos
          || (s.obs.en && !s.obsFits (s.snapItem r.auto r.pos).2.length) then s
      else (s.surveyRead r).surveyCatch n

/-- R471: a Survey starts; `auto` is the cell of an automatic one, whose entry is read now. -/
def State.startSurvey (s : State) (auto : Option CellId) : State :=
  let h : SnapHead :=
    { kind := 1, flags := b2n auto.isSome * 4, smear := 0, t0 := s.time.track, t1 := s.time.track,
      unit := match auto with | some g => g.toNat | none => 0, arb := s.disp.arbSeq - 1, eph := s.ephBytes }
  let r : SurveyRun := { head := h, auto := auto.map fun g => (g, padDw (s.cellEntry g) 256), start := s.clk.hc, pos := 0, bad := false }
  State.surveyCatch { s with stops := { s.stops with survey := some r } } 1

/-- R471: an automatic Survey of cell `g`, if AUTO is 1 and none runs. -/
def State.autoSurvey (s : State) (g : CellId) : State :=
  if s.stops.auto && s.stops.survey.isNone then s.startSurvey (some g) else s

/-- R468, R472: a Survey ends: it is counted, and its record goes out. -/
def State.endSurvey (s : State) (r : SurveyRun) (stop : Bool) : State :=
  let x := s.stops
  let s1 := { s with stops := { x with survey := none, surveys := BitVec.ofNat 16 (satAdd 0xFFFF x.surveys.toNat 1) } }
  s1.log 0x0F 0xF 0 0 (b2n r.auto.isSome + b2n stop * 2) r.head.t0 r.head.t1

/-- R472: a stop ends a Survey that runs. -/
def State.stopSurvey (s : State) : State :=
  match s.stops.survey with
  | some r => s.endSurvey r true
  | none => s

end Sys2Proof.Machine
end

