-- ==== Sys2Proof/Machine/Advance.lean ====
section
/-! DEFINITION. The passing of time: the clocks (R4, R5, R353, R354), the changes of track time (R357), and what happens in a cell by
itself, each in its cc. At the end of a cc: writes of own registers (R209), results (R207, R147), flags (R69), stores that become visible
(R209, R145, R146), commits (R99). In a cc: the pass engine (R99), and the reads of loads (R209, R145). Counters run with it (R458). -/

namespace Sys2Proof.Machine

/-! The hub clock and track time. -/

/-- The hub clock and track time after `k` hc. -/
def State.hubTick (s : State) (k : Nat) : State :=
  { s with clk := { s.clk with hc := s.clk.hc + k }, time := s.time.tick k }

/-- R357, R364, R369: the oldest decided change takes effect; a step is an event of the arbiter, with a STEP record. -/
def State.changeTime (s : State) (c : TimeChange) (rest : List TimeChange) : State :=
  let old := s.time.track
  let s1 := { s with time := { s.time.apply c with changes := rest } }
  if c.stepped then s1.logArb 0x0B 0xF 0 0 old s1.time.track else s1

/-- R357: time to hub cycle `h`; each decided change takes effect in its hc. The number bounds the changes. -/
def State.hubTo (s : State) (h : Nat) : Nat → State
  | 0 => s.hubTick (h - s.clk.hc)
  | n + 1 =>
    match s.time.changes with
    | [] => s.hubTick (h - s.clk.hc)
    | c :: rest =>
      if c.due ≤ h then ((s.hubTick (c.due - s.clk.hc)).changeTime c rest).hubTo h n else s.hubTick (h - s.clk.hc)

/-- R493: hc that `n` arithmetic periods span at the present divider, with what is left over. -/
def Clock.span (c : Clock) (n : Nat) : Nat × Nat :=
  let p := c.phase + n * c.d.toNat
  (p / 128, p % 128)

/-- Arithmetic periods until hub cycle `h` is reached (R493). -/
def Clock.periodsTo (c : Clock) (h : Nat) : Nat := ((h - c.hc) * 128 - c.phase + (c.d.toNat - 1)) / c.d.toNat

/-! What the end of a cc brings in a cell: all that is due before cc `t`. -/

/-- R207, R440: land one pilot result; one that met an uncorrectable error writes nothing and pends MCHK. -/
def Cell.landWb (c : Cell) (w : PilotWb) : Cell :=
  if w.bad then { c with exc := { c.exc with mchk := true } } else { c with pil := c.pil.writeReg w.wide w.reg w.val }

/-- R207: land every pilot result due before cc `t`. -/
def Cell.landPil (c : Cell) (t : Nat) : Cell :=
  let r := (sortBy PilotWb.due (c.pil.wbs.filter fun w => w.due < t)).foldl Cell.landWb c
  { r with pil := { r.pil with wbs := c.pil.wbs.filter fun w => !(w.due < t) } }

/-- R68, R69: the flags that the pilot raised before cc `t` stand in PIL. -/
def Cell.landFlags (c : Cell) (t : Nat) : Cell :=
  { c with fp := { c.fp with pil := (c.fp.raised.filter fun x => x.1 < t).foldl (fun a x => a ||| x.2) c.fp.pil,
                             raised := c.fp.raised.filter fun x => !(x.1 < t) } }

/-- R125: write the bits that `mask` marks of a vector or predicate register; m0 takes none. -/
def Vec.put (v : Vec) (w : VecWrite) : Vec :=
  match w.dest with
  | .v r => { v with v := v.v.set r.toNat ((v.v.get 0 r.toNat &&& ~~~w.mask) ||| (w.val &&& w.mask)) }
  | .m r =>
    if r = 0 then v
    else
      let mk : BitVec 1024 := w.mask.setWidth 1024
      let vl : BitVec 1024 := w.val.setWidth 1024
      { v with m := v.m.set r.toNat ((v.m.get 0 r.toNat &&& ~~~mk) ||| (vl &&& mk)) }

/-- R147, R69: land a vector instruction: all its destinations in one cc, and its flags. -/
def Cell.landVec (c : Cell) (f : VecFlight) : Cell :=
  { c with vec := f.writes.foldl Vec.put c.vec, fp := { c.fp with vec := c.fp.vec ||| f.flags } }

/-- R147: land every vector instruction due before cc `t`; of two in one cc the later-issued one's value is kept. -/
def Cell.landVecs (c : Cell) (t : Nat) : Cell :=
  let r := (sortBy VecFlight.due (c.vec.flight.filter fun f => f.due < t)).foldl Cell.landVec c
  { r with vec := { r.vec with flight := c.vec.flight.filter fun f => !(f.due < t) } }

/-- R440, R451: engine number of a storer. -/
def Storer.engine : Storer → Byte
  | .pass => 7
  | .vector => 1
  | .pilot => 0

/-- One store becomes visible at cell scope. -/
def State.landStore (s : State) (g : CellId) (p : PendStore) : State :=
  s.writeHome g p.by'.engine (p.store.place g p.off) p.bytes

/-- R145, R146, R209: the stores visible before cc `t` land, in the order of `PendStore.key`; one that meets a store of higher precedence at
a byte waits a cc longer. -/
def State.landStores (s : State) (g : CellId) (t : Nat) : State :=
  let st := (s.cell g).stores
  if st.all fun p => !(p.vis < t) then s
  else
    let late (p : PendStore) : Bool := st.any p.yields
    let s' := (sortBy PendStore.key (st.filter fun p => p.vis < t && !late p)).foldl (fun s p => s.landStore g p) s
    s'.updCell g fun c =>
      { c with stores := (st.filter fun p => !(p.vis < t) || late p).map fun p => if p.vis < t then { p with vis := p.vis + 1 } else p }

/-- The order in which writes of own registers take effect: those from outside first in their cc (R177). -/
def PendReg.key (p : PendReg) : Nat := 2 * p.vis + b2n (!p.outer)

/-- R209: apply every own register write that takes effect before cc `t`. -/
def State.landRegs (s : State) (g : CellId) (t : Nat) : State :=
  let rs := (s.cell g).regs
  if rs.all fun p => !(p.vis < t) then s
  else
    let s' := (sortBy PendReg.key (rs.filter fun p => p.vis < t)).foldl (fun s p => s.cellRegWrite g p.off p.val) s
    s'.updCell g fun c => { c with regs := rs.filter fun p => !(p.vis < t) }

/-- R232, R237, R239: what an entry, a gate or a return under way does before cc `t`. -/
def State.seqEnd (s : State) (g : CellId) (t : Nat) : State :=
  if (s.cell g).pil.seq.isNone then s else s.updCell g fun c => c.seqStep g t

/-- The end of the present cc in cell `g`. Flags are set after the writes that clear them (R69). -/
def State.cellEnd (s : State) (g : CellId) : State :=
  let t := s.clk.cc + 1
  (((s.landRegs g t).updCell g fun c => ((((c.landPil t).landFlags t).landVecs t).commitEnd t).popFeed t).landStores g t).seqEnd g t

/-! What a cc brings in a cell: the reads of loads. -/

/-- R168: the register value of loaded bytes. -/
def extendLoad (ext : Ext) (wide : Bool) (bs : List Byte) : BitVec 128 :=
  let v := leNat bs
  let w := 8 * bs.length
  if ext = .sign && !wide && bit v (w - 1) then BitVec.ofNat 128 (v + (2 ^ 64 - 2 ^ w)) else BitVec.ofNat 128 v

/-- R209: what a read of a load issued in cc `since` brings now, and whether it met an uncorrectable error. -/
def State.loadBytes (s : State) (g : CellId) (src : LoadFrom) (since : Nat) : List Byte × Bool :=
  match src with
  | .own st o n => (s.readOwn g st o n s.clk.cc (some since), s.badHome g (st.place g o) n)
  | .reg off => (leBytes ((s.cellRegRead g off).getD 0) 8, false)

/-- R9: what a read of a load changes. -/
def Cell.readEffect (c : Cell) (src : LoadFrom) : Cell :=
  match src with
  | .own _ _ _ => c
  | .reg off => c.regReadEffect off

/-- R253: such a read corrects what the code can. -/
def State.loadCorrect (s : State) (g : CellId) (src : LoadFrom) : State :=
  match src with
  | .own st o n => s.correctAt g (st.place g o) n
  | .reg _ => s

/-- A load under way: the state, what it has read, and whether it met an uncorrectable error. -/
structure LoadNow where
  s : State
  got : List Byte
  bad : Bool

/-- R209, R440: one read; the first that meets an error raises the load's record. -/
def LoadNow.read (l : LoadNow) (g : CellId) (since : Nat) (r : LoadRead) : LoadNow :=
  let x := l.s.loadBytes g r.src since
  let s1 := if x.2 && !l.bad then l.s.raise g mechSram actCommand 1 0 0 r.addr else l.s
  { s := (s1.loadCorrect g r.src).updCell g fun c => c.readEffect r.src, got := l.got ++ x.1, bad := l.bad || x.2 }

/-- The reads of this cc. -/
def State.readNow (s : State) (g : CellId) (since : Nat) (reads : List LoadRead) (got : List Byte) (bad : Bool) : LoadNow :=
  (reads.filter fun r => r.cc ≤ s.clk.cc).foldl (fun l r => l.read g since r) { s := s, got := got, bad := bad }

/-- Reads still to come after this cc. -/
def readsAfter (reads : List LoadRead) (now : Nat) : List LoadRead := reads.filter fun r => !(r.cc ≤ now)

/-- R209, R213: the reads of this cc for a pilot load; the last one gives its value. -/
def State.wbReads (s : State) (g : CellId) (w : PilotWb) : State × PilotWb :=
  let l := s.readNow g w.since w.reads w.got w.bad
  let rest := readsAfter w.reads s.clk.cc
  (l.s, { w with reads := rest, got := l.got, bad := l.bad,
                 val := if rest.isEmpty && !w.reads.isEmpty then extendLoad w.ext w.wide l.got else w.val })

/-- The reads of this cc for all pilot loads. -/
def State.pilotReads (s : State) (g : CellId) : State :=
  let ws := (s.cell g).pil.wbs
  if ws.all fun w => w.reads.all fun r => !(r.cc ≤ s.clk.cc) then s
  else
    let r := ws.foldl (fun (a : State × List PilotWb) w => let x := a.1.wbReads g w; (x.1, a.2 ++ [x.2])) (s, [])
    r.1.updCell g fun c => { c with pil := { c.pil with wbs := r.2 } }

/-- R199: the reads of this cc for one custom instruction; with its last byte it runs on, and its results are on their way. -/
def State.microReads (s : State) (g : CellId) (m : MicroRun) : State :=
  let l := s.readNow g m.since m.reads m.got m.bad
  let rest := readsAfter m.reads s.clk.cc
  let m1 := { m with reads := rest, got := l.got, bad := l.bad }
  l.s.updCell g fun c =>
    if m.req.isNone && rest.isEmpty then
      { c with pil := { c.pil with wbs := c.pil.wbs ++ (m1.resume (leNat l.got)).results m.due } }
    else { c with pil := { c.pil with micros := c.pil.micros ++ [m1] } }

/-- The reads of this cc for all custom instructions. -/
def State.customReads (s : State) (g : CellId) : State :=
  let ms := (s.cell g).pil.micros
  if ms.all fun m => m.reads.all fun r => !(r.cc ≤ s.clk.cc) then s
  else ms.foldl (fun s m => s.microReads g m) (s.updCell g fun c => { c with pil := { c.pil with micros := [] } })

/-- R143: the address of an offset of an own store. -/
def OwnStore.addr (st : OwnStore) (g : CellId) (o : Nat) : Nat :=
  match st with
  | .localStore => o
  | .window => winBase + o
  | .slice => sliceAddr g o

/-- The machine check that an error met by a vector load brings after its write (R440). -/
def vecMchk (due : Nat) : PilotWb := { wide := false, reg := 0, val := 0, due := due, bad := true, load := false }

/-- R145, R440: one group of a vector load is read: the elements' bytes into the flight; an element with an uncorrectable error is
written as read, and one record and a machine check follow. -/
def State.vecReadGroup (s : State) (g : CellId) (f : VecFlight) (r : VecRead) : State × VecFlight :=
  let n := f.ew / 8
  let v := (r.elems.map fun e => leNat (s.readOwn g r.store e.2 n s.clk.cc none) * 2 ^ (f.ew * e.1)).sum
  let f1 := { f with writes := match f.writes with
                               | w :: rest => { w with val := w.val ||| BitVec.ofNat 8192 v } :: rest
                               | [] => [] }
  let s := r.elems.foldl (fun s e => s.correctAt g (r.store.place g e.2) n) s
  match r.elems.find? fun e => s.badHome g (r.store.place g e.2) n with
  | some e =>
    if (s.cell g).pil.wbs.any fun w => w == vecMchk f.due then (s, f1)
    else
      ((s.raise g mechSram actCommand 1 1 0 (r.store.addr g e.2)).updCell g fun c =>
        { c with pil := { c.pil with wbs := c.pil.wbs ++ [vecMchk f.due] } }, f1)
  | none => (s, f1)

/-- The reads of this cc for one vector load. -/
def State.flightReads (s : State) (g : CellId) (f : VecFlight) : State × VecFlight :=
  let r := (f.reads.filter fun r => r.cc ≤ s.clk.cc).foldl
    (fun (a : State × VecFlight) r => a.1.vecReadGroup g a.2 r) (s, f)
  (r.1, { r.2 with reads := f.reads.filter fun r => !(r.cc ≤ s.clk.cc) })

/-- The reads of this cc for all vector loads. -/
def State.vecReads (s : State) (g : CellId) : State :=
  let fs := (s.cell g).vec.flight
  if fs.all fun f => f.reads.all fun r => !(r.cc ≤ s.clk.cc) then s
  else
    let r := fs.foldl (fun (a : State × List VecFlight) f => let x := a.1.flightReads g f; (x.1, a.2 ++ [x.2])) (s, [])
    r.1.updCell g fun c => { c with vec := { c.vec with flight := r.2 } }

/-- R233, R239, R253: one read of a gate's descriptor or of a return's frame. -/
def State.seqRead (s : State) (g : CellId) (q : PilSeq) (r : LoadRead) : State × PilSeq :=
  let x := s.loadBytes g r.src q.since
  (s.loadCorrect g r.src, { q with got := q.got ++ x.1, bad := q.bad || x.2 })

/-- The reads of this cc for a gate or a return. -/
def State.seqReads (s : State) (g : CellId) : State :=
  match (s.cell g).pil.seq with
  | none => s
  | some q =>
    if q.reads.all fun r => !(r.cc ≤ s.clk.cc) then s
    else
      let x := (q.reads.filter fun r => r.cc ≤ s.clk.cc).foldl (fun (a : State × PilSeq) r => a.1.seqRead g a.2 r) (s, q)
      x.1.updCell g fun c => c.setSeq (some { x.2 with reads := readsAfter q.reads s.clk.cc })

/-- What cell `g` does by itself in this cc. -/
def State.cellMoment (s : State) (g : CellId) : State := ((((s.passMoment g).pilotReads g).customReads g).vecReads g).seqReads g

/-! Watchdog causes and counters. -/

/-- R248: the causes that the watchdog counts: codes of enabled pending interrupts, and 0x3F for INDF. -/
def Exc.dogCauses (e : Exc) : List Nat :=
  (if e.mchk then [0x20] else []) ++ (if e.hubreq then [0x21] else []) ++ (if e.pabort then [0x22] else [])
    ++ (if e.mbox && e.ienMbox then [0x23] else []) ++ (if e.indf then [0x3F] else [])

/-- R248: since when each cause holds, in hub cycle `hc`. -/
def Cell.dogTick (c : Cell) (hc : Nat) : Cell :=
  { c with id := { c.id with dog := c.exc.dogCauses.map fun k => (k, c.id.dog.get hc k) } }

/-- The counters, the watchdog and the router of cell `r` over `n` cc from cc `now` on, in hub cycles `h0` to `h1`. -/
def Cell.tick (c : Cell) (r : CellId) (now n h0 h1 : Nat) : Cell :=
  let c1 := c.dogTick h0
  ({ c1 with trc := c1.trc.advance now n, router := c1.router.run r (h1 - h0) } : Cell).dogTick h1

/-! The flow of time. -/

/-- The cells stand still: frozen (R476) or in safe stop (R446). -/
def Clock.still (c : Clock) : Bool := c.frozen || c.stopped

/-- `n` arithmetic periods in which nothing falls due in a cell. -/
def State.tick (s : State) (n : Nat) : State :=
  let p := s.clk.span n
  let h := s.clk.hc + p.1
  let s1 := if s.clk.still then s else { s with cells := s.cells.map fun e => (e.1, e.2.tick (BitVec.ofNat 8 e.1) s.clk.cc n s.clk.hc h) }
  let s2 := s1.hubTo h s.time.changes.length
  { s2 with clk := { s2.clk with phase := p.2, cc := if s.clk.still then s.clk.cc else s.clk.cc + n } }

/-- Every cell that differs from the reset one. -/
def State.cellNums (s : State) : List CellId := s.cells.map fun e => BitVec.ofNat 8 e.1

/-- `k` cc, with what the end of the last one and the cc after it bring in every cell. -/
def State.hop (s : State) (k : Nat) : State :=
  let s1 := s.tick (k - 1)
  let s2 := (s1.cellNums.foldl State.cellEnd s1).tick 1
  s2.cellNums.foldl State.cellMoment s2

/-- The cc in which something happens in a cell by itself; one up to cc `now` stands for the following cc. -/
def Cell.events (c : Cell) (now : Nat) : List Nat :=
  c.regs.map (fun p => p.vis + 1) ++ c.fp.raised.map (fun x => x.1 + 1) ++ c.stores.map (fun p => p.vis + 1)
    ++ (c.pil.wbs.flatMap fun w => (w.due + 1) :: w.reads.map LoadRead.cc)
    ++ (c.pil.micros.flatMap fun m => m.reads.map LoadRead.cc)
    ++ (match c.pil.seq with | some q => (q.at' + 1) :: q.reads.map LoadRead.cc | none => [])
    ++ ((c.trc.eng.flatMap fun e => e.2.spans.flatMap fun x => [x.from', x.to']).filter fun t => now < t)
    ++ (c.vec.flight.flatMap fun f => (f.due + 1) :: f.reads.map VecRead.cc) ++ c.passEvents now

/-- cc to the next event of any cell, at least 1 and at most `n`. -/
def State.nextIn (s : State) (n : Nat) : Nat :=
  s.cells.foldl (fun a e => (e.2.events s.clk.cc).foldl (fun a t => min a (max 1 (t - s.clk.cc))) a) n

/-- `n` cc, from event to event. -/
def State.flow (s : State) : Nat → Nat → State
  | 0, _ => s
  | fuel + 1, n =>
    if n = 0 then s
    else
      let k := s.nextIn n
      (s.hop k).flow fuel (n - k)

/-! The tick of a scheduled Eclipse (R476). -/

/-- R354: the first hc, from `hc` on, whose track time is at or after `v`, if INC does not change. -/
def TimeBase.meets (t : TimeBase) (hc : Nat) (v : Word64) : Option Nat :=
  if v ≤ t.track then some hc
  else if t.inc = 0 then none
  else some (hc + ((v - t.track).toNat * 2 ^ 32 - t.frac + (t.inc.toNat - 1)) / t.inc.toNat)

/-- R357, R364, R476: the same with the decided changes of the list; a step that passes `v` makes the stepped hc the one. -/
def TimeBase.reach (t : TimeBase) (hc : Nat) (v : Word64) : List TimeChange → Option Nat
  | [] => t.meets hc v
  | c :: rest =>
    match t.meets hc v with
    | some h => if h < c.due then some h else ((t.tick (c.due - hc)).apply c).reach (max hc c.due) v rest
    | none => ((t.tick (c.due - hc)).apply c).reach (max hc c.due) v rest

/-- R476: the tick hc of a scheduled Eclipse. -/
def State.tickHc (s : State) : Option Nat := if s.stops.st = 1 then s.time.reach s.clk.hc s.stops.tick s.time.changes else none

/-- R472, R476, R480: the module stands still; a Survey that runs ends; the snapshot, with header `h`, is to be written. -/
def State.standStill (s : State) (h : SnapHead) : State :=
  let s1 := s.stopSurvey
  { s1 with
    clk := { s1.clk with frozen := true, frozenAt := s1.clk.hc }
    stops := { s1.stops with st := 2, immed := h.kind == 3, snapdone := false, arrived := [], cut := some h } }

/-- R473: the header of a snapshot of kind `kind` whose stop begins now, with T0 `t0`. -/
def State.stopHead (s : State) (kind : Nat) (t0 : Word64) : SnapHead :=
  { kind := kind, flags := b2n (kind == 2), smear := 0, t0 := t0, t1 := t0, unit := 0, arb := s.disp.arbSeq - 1, eph := s.ephBytes }

/-- R476: the end of the tick hc, whose track time is `t0`: the cut. -/
def State.cutNow (s : State) (t0 : Word64) : State := s.standStill (s.stopHead 2 t0)

/-- The time of `n` arithmetic periods passes. In a module that runs the cells go on, up to the end of the tick hc (R476), and from there on
only the hub's clock and track time. -/
def State.run (s : State) (n : Nat) : State :=
  if s.clk.still then s.tick n
  else
    match s.tickHc with
    | none => s.flow n n
    | some h =>
      let k := s.clk.periodsTo (h + 1)
      if n < k then s.flow n n else ((s.flow k k).cutNow (s.time.ahead s.clk.hc h s.time.changes).track).tick (n - k)

/-- The time of `n` arithmetic periods passes: hub clock, track time, and, unless the cells stand still, the cells; ports whose training
takes too long go down (R377), and a Survey reads what is due (R471). In a module that is off no time passes (R489). -/
def State.advance (s : State) (n : Nat) : State :=
  if n = 0 || !s.clk.powered then s else ((s.run n).lapsePorts).surveyCatch snapCount

/-- Let time pass up to the start of cc `t`, if it is still to come. -/
def State.until (s : State) (t : Nat) : State := s.advance (t - s.clk.cc)

/-- R476: time passes up to the start of cc `t`, and `f` follows, unless the module has come to a stop before it. -/
def State.untilThen (s : State) (t : Nat) (f : State → State) : State :=
  let s1 := s.until t
  if s1.clk.still then s1 else f s1

/-- Let an entry, a gate or a return of cell `g`'s pilot that is under way run to its end; the number bounds its steps. -/
def State.seqDone (s : State) (g : CellId) : Nat → State
  | 0 => s
  | n + 1 => match (s.cell g).pil.seq with | none => s | some q => (s.until (q.at' + 1)).seqDone g n

/-! Writes of the fourth group of a bank (R252). -/

/-- R146, R252: whether a store of the pass engine, the vector unit or the pilot reaches one of `n` bytes at offset `o` of an own store in cc
`now`. -/
def Cell.bankTaken (c : Cell) (st : OwnStore) (o n now : Nat) : Bool :=
  c.stores.any fun q => q.vis == now && q.store == st && overlaps q.off q.bytes.length o n

/-- R146, R252: a write of the fourth group waits a cc for each cc in which a store of higher precedence reaches one of its bytes; the number
bounds the wait. -/
def State.bankWait (s : State) (h : CellId) (st : OwnStore) (o n : Nat) : Nat → State
  | 0 => s
  | k + 1 => if (s.cell h).bankTaken st o n s.clk.cc then (s.until (s.clk.cc + 1)).bankWait h st o n k else s

/-- R146, R252, R290: a write of the fourth group (mover, remote requests, dispatcher) is performed: in this cc, or, where it loses its bank, in
the first one in which no store of higher precedence reaches its bytes. -/
def State.writeFourth (s : State) (by' : CellId) (engine : Byte) (pl : Place) (bs : List Byte) : State :=
  match pl.home by' with
  | none => s.writeHome by' engine pl bs
  | some (h, st, o) => (s.bankWait h st o bs.length (s.cell h).stores.length).writeHome by' engine pl bs

end Sys2Proof.Machine
end

