-- ==== Sys2Proof/Machine/Issue.lean ====
section
/-! DEFINITION. The issue of a pilot instruction (R201 to R209): the one operation every pilot and vector instruction's meaning
goes through. An instruction whose command is taken waits in IS as long as R206 holds it: the clocks advance to its issue cc,
and what falls due meanwhile lands. Where it can never issue as the state stands (an idle or frozen pilot, a result that only
a response will bring), the state does not change but for the stall reason (log 1, log 9). -/

namespace Sys2Proof.Machine

/-- How an instruction's body ends in its issue cc. -/
inductive Res where
  /-- It has issued: the state after it, cc to the next issue, where the PC goes (`none`: the next word), and what the cc
  until the next issue are spent on. -/
  | ok (s : State) (delay : Nat) (pc : Option Word64) (why : Byte)
  /-- A fault, decided in the issue cc (R208), on the state as it stood. -/
  | trap (code : Nat) (wr half : Bool) (addr : Word64) (info : Nat)
  /-- It stays in IS, with a stall reason of R459. -/
  | stall (why : Byte)
  /-- It did all that it does to the pilot itself (GATE, RETX, a cell reset). -/
  | done (s : State)

/-- Registers an instruction reads and writes, its result latency, and the unit it needs (R206, R207). -/
structure Uses where
  s : List (BitVec 5)
  w : List (BitVec 5)
  dst : Option (Bool × BitVec 5)
  lat : Nat
  /-- First cc in which the divider it needs is free. -/
  unitFree : Nat
  /-- It is a memory access, held by LDA, ACQR and FENCE (R298 to R300). -/
  mem : Bool

/-- Nothing read or written. -/
def Uses.none' : Uses := { s := [], w := [], dst := none, lat := 1, unitFree := 0, mem := false }

/-- Reads s registers, writes s register `rd`. -/
def usesS (src : List (BitVec 5)) (rd : BitVec 5) (lat : Nat) : Uses :=
  { s := src, w := [], dst := some (false, rd), lat := lat, unitFree := 0, mem := false }

/-- Whether a register of a file is among the uses; s0 has no scoreboard entry (R206). -/
def Uses.touches (u : Uses) (wide : Bool) (r : BitVec 5) : Bool :=
  (wide || r != 0) && ((if wide then u.w else u.s).any (· == r) || u.dst == some (wide, r))

/-- R206: the cc after the last pending result of the uses lands. -/
def Pilot.regsReady (p : Pilot) (u : Uses) (now : Nat) : Nat :=
  let a := p.wbs.foldl (fun a w => if u.touches w.wide w.reg then max a (w.due + 1) else a) now
  p.micros.foldl (fun a m => if m.req.isNone && m.dests.any (u.touches false) then max a (m.due + 1) else a) a

/-- R206: results of a register file that land at the end of cc `t`: those on their way, and those of a custom instruction whose own load
is under way. -/
def Pilot.landings (p : Pilot) (wide : Bool) (t : Nat) : Nat :=
  (p.wbs.filter fun w => w.wide == wide && (wide || w.reg != 0) && !w.bad && w.due == t).length
    + (if wide then 0 else ((p.micros.filter fun m => m.req.isNone && m.due == t).map fun m => m.dests.length).sum)

/-- R206: results of the destination's file that land in the cc in which an issue in cc `t` would write; none while the latency is
still to be found (a load's, by its place). -/
def Pilot.writesAt (p : Pilot) (u : Uses) (t : Nat) : Nat :=
  match u.dst with
  | none => 0
  | some (wide, r) =>
    if u.lat = 0 || (!wide && r = 0) then 0
    else p.landings wide (t + u.lat - 1)

/-- R206: first cc from `t` in which a write port is free; at most `fuel` cc are tried, as many as results can be pending. -/
def Pilot.portReady (p : Pilot) (u : Uses) (t : Nat) : Nat → Nat
  | 0 => t
  | fuel + 1 => if p.writesAt u t < 2 then t else p.portReady u (t + 1) fuel

/-- As many cc as results can land in. -/
def Pilot.pendings (p : Pilot) : Nat := p.wbs.length + p.micros.length

/-- R206: the cc in which IS lets an instruction go. -/
def Pilot.ready (p : Pilot) (u : Uses) (now : Nat) : Nat :=
  p.portReady u (max (max p.next (if u.mem then max u.unitFree p.memFree else u.unitFree)) (p.regsReady u now)) p.pendings

/-- R206, R210: whether a remote load, of a plain or a custom instruction, holds one of the registers. -/
def Pilot.remoteHolds (p : Pilot) (u : Uses) : Bool :=
  (p.remotes.any fun r => match r.dest with | some d => u.touches d.wide d.reg | none => false)
    || p.micros.any fun m => m.req.isSome && m.dests.any (u.touches false)

/-- R206, R459: what holds an instruction from cc `now` to before its issue cc `r`, each with its reason: registers, the divider, memory,
and beyond them the write port. -/
def Pilot.waits (p : Pilot) (u : Uses) (now r : Nat) : List Span :=
  let regs := p.regsReady u now
  let mem := if u.mem then p.memFree else 0
  [{ from' := now, to' := min r regs, why := 1 }, { from' := now, to' := min r u.unitFree, why := 3 },
   { from' := now, to' := min r mem, why := 2 }, { from' := max (max now p.next) (max regs (max u.unitFree mem)), to' := r, why := 2 }]

/-- Whether the pilot of cell `g` issues instructions at all. -/
def State.running (s : State) (g : CellId) : Bool :=
  let c := s.cell g
  s.live g && c.pil.mode != .idle && c.pil.rep.isNone && c.vec.vorb.isNone

/-- Show why cell `g`'s pilot waits (R459). -/
def State.pilotWhy (s : State) (g : CellId) (why : Byte) : State := s.updCell g fun c => c.engine 0 0 why

/-- Wait in IS until cc `t`, held as `spans` say (R459). -/
def State.waitIs (s : State) (g : CellId) (t : Nat) (spans : List Span) : State :=
  if t ≤ s.clk.cc then s
  else (s.updCell g fun c => spans.foldl (fun c x => c.span 0 x.from' x.to' x.why) (c.engine 0 0 0)).until t

/-- R206: wait until nothing in the cell's registers and units holds an instruction of these uses. -/
def State.waitReady (s : State) (g : CellId) (u : Uses) : State :=
  let p := (s.cell g).pil
  let r := p.ready u s.clk.cc
  s.waitIs g r (p.waits u s.clk.cc r)

/-- Wait until cc `t` for one reason. -/
def State.waitFor (s : State) (g : CellId) (t : Nat) (why : Byte) : State := s.waitIs g t [{ from' := s.clk.cc, to' := t, why := why }]

/-- R232: take a fault of the instruction at the PC. -/
def State.fault (s : State) (g : CellId) (code : Nat) (wr half : Bool) (addr : Word64) (info : Nat) (insn : Word32) : State :=
  s.takeTrap g { code := code, wr := wr, half := half, info := info, insn := insn, addr := addr, rpc := (s.cell g).pil.pc }

/-- R32, R31, R223: a register access by cell `g`'s pilot, brought by a command of its own, faults. Its instruction word is a free value (log 2). -/
def State.deny (s : State) (g : CellId) (code : Nat) (wr : Bool) (a : Nat) : State :=
  if s.running g then
    State.fault { s with fresh := s.fresh + 1 } g code wr false (w64 a) 0 (Sys2Proof.Config.faultInsn s.fresh)
  else s

/-- R161: whether the PC lies in the window alias. -/
def pcOk (pc : Word64) : Bool := winBase ≤ pc.toNat && pc.toNat < winBase + 0x40000

/-- Window offset of the 16 bytes that the fetch at a PC reads. -/
def fetchOff (pc : Word64) : Nat := (pc.toNat - winBase) / 16 * 16

/-- R253: the fetch corrects what the code can. -/
def State.fetchCorrect (s : State) (g : CellId) : State :=
  let c := s.cell g
  if c.win.soft.any fun e => unitMet sramUnit (fetchOff c.pil.pc) 16 e.1 then s.correctAt g (.win (fetchOff c.pil.pc)) 16 else s

/-- The pilot after an instruction issued in cc `now`; the cc to the next issue are spent on `why`. -/
def Cell.retire (c : Cell) (now delay : Nat) (pc : Option Word64) (why : Byte) : Cell :=
  let c1 := (c.engine 0 (now + 1) 0).span 0 (now + 1) (now + delay) why
  { c1 with pil := { c1.pil with pc := pc.getD (c.pil.pc + 4), next := now + delay, nextWhy := why } }

/-- What follows from the end of an instruction's body. -/
def State.finish (s : State) (g : CellId) (insn : Word32) (r : Res) : State :=
  match r with
  | .ok s' delay pc why => s'.updCell g fun c => c.retire s.clk.cc delay pc why
  | .trap code wr half addr info => s.fault g code wr half addr info insn
  | .stall why => s.pilotWhy g why
  | .done s' => s'

/-- R208, R224: the issue cc: an interrupt that is due is taken first (INTERRUPT_ENTRY does it, and the instruction does not
issue); in a module that has come to a stop meanwhile nothing issues (R476); then FETCH, ILLEGAL, and the instruction's own faults and effect. -/
def State.issueNow (s : State) (g : CellId) (insn : Word32) (illegal : Bool) (body : State → Res) : State :=
  let c := s.cell g
  if s.clk.still || (c.exc.takeable s.clk.cc).isSome then s
  else if !pcOk c.pil.pc then s.fault g xFetch false false c.pil.pc 0 0
  else if c.win.anyBad sramUnit (fetchOff c.pil.pc) 16 then s.updCell g fun c => c.enterReset 4
  else
    let s := s.fetchCorrect g
    if illegal then s.fault g xIllegal false false 0 0 insn else s.finish g insn (body s)

/-- The issue of one instruction in cell `g`. `port` gives the first cc in which the port or unit it needs is free, once its
registers can be read, and `why` the reason of that wait. An entry or a return under way comes to its end first. -/
def State.issueFor (s : State) (why : Byte) (g : CellId) (u : Uses) (insn : Word32) (illegal : Bool) (port : State → Nat)
    (body : State → Res) : State :=
  let s := s.seqDone g 4
  if !s.running g then s
  else
    let p := (s.cell g).pil
    if p.remoteHolds u then s.pilotWhy g 1
    else if u.mem && p.hold then s.pilotWhy g 4
    else
      let s1 := s.waitReady g u
      let s2 := if illegal then s1 else s1.waitFor g (port s1) why
      s2.issueNow g insn illegal body

/-- The issue of an instruction that may wait for a port (R206, R209). -/
def State.issue (s : State) (g : CellId) (u : Uses) (insn : Word32) (illegal : Bool) (port : State → Nat) (body : State → Res) : State :=
  s.issueFor 2 g u insn illegal port body

/-- R191: wait in IS until the cc that `t` gives, or until an interrupt can be taken; at most `fuel` events are passed. -/
def State.waitOpen (s : State) (g : CellId) (t : State → Nat) (why : Byte) : Nat → State
  | 0 => s
  | fuel + 1 =>
    if s.clk.still || t s ≤ s.clk.cc || ((s.cell g).exc.takeable s.clk.cc).isSome then s
    else
      let s1 := s.pilotWhy g why
      (s1.advance (s1.nextIn (t s - s.clk.cc))).waitOpen g t why fuel

/-- R191: the issue of an instruction whose stall does not hold off an interrupt; `t` gives the first cc in which what it waits for has
ended by itself. -/
def State.issueOpen (s : State) (g : CellId) (u : Uses) (insn : Word32) (illegal : Bool) (t : State → Nat) (why : Byte)
    (body : State → Res) : State :=
  let s := s.seqDone g 4
  if !s.running g then s
  else
    let p := (s.cell g).pil
    if p.remoteHolds u then s.pilotWhy g 1
    else
      let s1 := s.waitReady g u
      let s2 := if illegal then s1 else s1.waitOpen g t why (t s1 - s1.clk.cc)
      s2.issueNow g insn illegal body

/-- No port needed. -/
def noPort (_ : State) : Nat := 0

/-- R207: hand a result of latency `lat` on: written at once when it lands in the issue cc, else when it is due. -/
def Pilot.result (p : Pilot) (wide : Bool) (r : BitVec 5) (v : BitVec 128) (lat now : Nat) : Pilot :=
  if !wide && r = 0 then p
  else if lat ≤ 1 then p.writeReg wide r v
  else { p with wbs := p.wbs ++ [{ wide := wide, reg := r, val := v, due := now + lat - 1, bad := false, load := false }] }

/-- R68: flags that the pilot raises in cc `now`; none leaves no trace. They stand in PIL at its end (log 50). -/
def FpState.raise (f : FpState) (fl : FFlags) (now : Nat) : FpState :=
  if fl = 0 then f else { f with raised := f.raised ++ [(now, fl)] }

/-- A plain instruction: it computes from its own cell and writes one register with latency `lat`; `f` gives the value and the
flags it raises in CELL_FPSTAT.PIL. -/
def State.issueReg (s : State) (g : CellId) (u : Uses) (insn : Word32) (illegal : Bool)
    (f : Cell → BitVec 128 × FFlags) : State :=
  s.issue g u insn illegal noPort fun s =>
    .ok (s.updCell g fun c =>
      let r := f c
      let c' : Cell := { c with fp := c.fp.raise r.2 s.clk.cc }
      match u.dst with
      | some (wide, rd) => { c' with pil := c'.pil.result wide rd r.1 u.lat s.clk.cc }
      | none => c') 1 none 0

/-- A plain integer instruction: sources, destination, latency and value. -/
def State.issueInt (s : State) (g : CellId) (src : List (BitVec 5)) (rd : BitVec 5) (lat : Nat) (insn : Word32)
    (illegal : Bool) (f : Pilot → Word64) : State :=
  s.issueReg g (usesS src rd lat) insn illegal fun c => ((f c.pil).setWidth 128, 0)

end Sys2Proof.Machine
end

