-- ==== Sys2Proof/Machine/Operands.lean ====
section
/-! DEFINITION. The results of the pilot's scalar-float and short-vector functions (R173 to R179), as functions of operand values, and
the operand shapes that the words of the pilot have. -/

namespace Sys2Proof.Machine

/-! Elements of a w register (R178). -/

/-- R178: the element types of WOP. -/
def wType (ty : BitVec 4) : Option Elem := if vtValid ty.toNat then Elem.ofCode ty.toNat else none

/-- An elementwise float result over a w register: elements and the flags of all. -/
def mapW (t : Elem) (f : Nat → FRes) : BitVec 128 × FFlags :=
  let n := 128 / t.width
  let r := (List.range n).map f
  (BitVec.ofNat 128 (ofElems t.width n fun i => (r.getD i ⟨0, 0⟩).bits), orFlags (r.map FRes.flags))

/-- A float or integer result of one element: floats by `ff`, integers by `fi` on their values. -/
def elemOp (t : Elem) (ff : FVal → FVal → FRes) (fi : Int → Int → Int) (x y : Nat) : FRes :=
  if t.isFloat then ff (t.decodeF x) (t.decodeF y) else ⟨t.encodeI (fi (t.decodeI x) (t.decodeI y)), 0⟩

/-- Minimum or maximum of one element (R174, R178). -/
def elemMinMax (t : Elem) (larger : Bool) (x y : Nat) : FRes :=
  if t.isFloat then t.fminmax larger x y
  else ⟨if (t.decodeI x < t.decodeI y) != larger then x % 2 ^ t.width else y % 2 ^ t.width, 0⟩

/-- A compare of one element. -/
def elemCmp (t : Elem) (r : Rel) (x y : Nat) : Bool × FFlags :=
  if t.isFloat then t.fcmp r x y else (t.icmp r x y, 0)

/-- R174: |x|; a NaN becomes the canonical one. -/
def absElem (t : Elem) (x : Nat) : FRes :=
  let v := t.decodeF x
  if v.isNan then ⟨t.nan, snanIV [v]⟩ else ⟨x % 2 ^ (t.width - 1), 0⟩

/-- R207: float latencies by format: FP64, FP32, and the 16-bit ones. -/
def fpLat (t : Elem) (l64 l32 l16 : Nat) : Nat := if t = .fp64 then l64 else if t = .fp32 then l32 else l16

/-- R173: format of FOP and FMA. -/
def fopFmt (b : BitVec 2) : Elem := (Elem.ofCode b.toNat).getD .fp64

/-! Shapes of instruction words: what an instruction of a shape reads, what makes it illegal (R163), and its issue. -/

/-- OPR with two sources: fn[10:6] must be 0 (R165). -/
def oprShape (code lat : Nat) (op : Word64 → Word64 → Word64) (g : CellId) (f : RFmt) (s : State) : State :=
  s.issueInt g [f.ra, f.rb] f.rd lat (encR 0b000001 code f) (f.hi != 0) fun p => op (p.readS f.ra) (p.readS f.rb)

/-- Mark the integer divider busy from the issue cc on (R207). -/
def State.useIntDiv (s : State) (g : CellId) (lat : Nat) : State :=
  s.updCell g fun c => { c with pil := { c.pil with intDiv := s.clk.cc + lat } }

/-- An integer divide (R207): it waits for the divider and holds it. -/
def divShape (insn : Word32) (illegal : Bool) (lat : Nat) (ra rb rd : BitVec 5) (op : Word64 → Word64 → Word64) (g : CellId)
    (s : State) : State :=
  let u := { usesS [ra, rb] rd lat with unitFree := (s.cell g).pil.intDiv }
  s.issue g u insn illegal noPort fun s =>
    .ok ((s.updCell g fun c =>
      { c with pil := c.pil.result false rd ((op (c.pil.readS ra) (c.pil.readS rb)).setWidth 128) lat s.clk.cc }).useIntDiv g lat)
      1 none 0

/-- A divide of OPR. -/
def oprDivShape (code : Nat) (op : Word64 → Word64 → Word64) (g : CellId) (f : RFmt) (s : State) : State :=
  divShape (encR 0b000001 code f) (f.hi != 0) 34 f.ra f.rb f.rd op g s

/-- The immediate group. -/
def immShape (op : Nat) (fn : Word64 → BitVec 16 → Word64) (g : CellId) (f : IFmt) (s : State) : State :=
  s.issueInt g [f.ra] f.rd 1 (encI op f) false fun p => fn (p.readS f.ra) f.imm

/-- SHIFTI (R167); `w` forms refuse shamt ≥ 32. -/
def shiShape (fn : Nat) (w : Bool) (op : Word64 → Nat → Word64) (g : CellId) (f : ShFmt) (s : State) : State :=
  s.issueInt g [f.ra] f.rd 1 (encSh fn f) (f.mid != 0 || (w && 32 ≤ f.shamt.toNat)) fun p => op (p.readS f.ra) f.shamt.toNat

/-- PARSE: the codes of R180 are all of fn. `one` functions take rb = 0; `rdIn` ones read rd. -/
def parseShape (code : Nat) (one rdIn : Bool) (op : Word64 → Word64 → Word64 → Word64) (g : CellId) (f : RFmt) (s : State) :
    State :=
  s.issueInt g ([f.ra] ++ (if one then [] else [f.rb]) ++ (if rdIn then [f.rd] else [])) f.rd 1 (encR 0b001101 code f)
    (f.hi != 0 || (one && f.rb != 0)) fun p => op (p.readS f.ra) (p.readS f.rb) (p.readS f.rd)

/-- BITF (R180). -/
def bitfShape (fn : Nat) (rdIn raZero : Bool) (op : Word64 → Word64 → Nat → Nat → Word64) (g : CellId) (f : BfFmt) (s : State) :
    State :=
  s.issueInt g ([f.ra] ++ (if rdIn then [f.rd] else [])) f.rd 1 (encBf fn f) (raZero && f.ra != 0) fun p =>
    op (p.readS f.ra) (p.readS f.rd) f.pos.toNat (f.lenm1.toNat + 1)

/-- Uses of an instruction on f or w registers. -/
def usesW (src : List (BitVec 5)) (wide : Bool) (rd : BitVec 5) (lat : Nat) : Uses :=
  { s := [], w := src, dst := some (wide, rd), lat := lat, unitFree := 0, mem := false }

/-- FOP with two float sources (R173, R174): result in fd. `u2` says that rb is used. -/
def fopShape (code : Nat) (u2 : Bool) (lat : Elem → Nat) (op : Elem → Rnd → Nat → Nat → FRes) (g : CellId) (f : FFmt)
    (s : State) : State :=
  let t := fopFmt f.fmt
  s.issueReg g (usesW (if u2 then [f.ra, f.rb] else [f.ra]) true f.rd (lat t)) (encF code f)
    (f.hi != 0 || (!u2 && f.rb != 0)) fun c =>
    let r := op t (Rnd.plain c.fp.prm) (c.pil.readF f.ra).toNat (c.pil.readF f.rb).toNat
    (BitVec.ofNat 128 r.bits, r.flags)

/-- FDIV and FSQRT: they wait for the float divider and hold it for L (R207). -/
def fdivShape (code : Nat) (u2 : Bool) (lat : Elem → Nat) (op : Elem → Rnd → Nat → Nat → FRes) (g : CellId) (f : FFmt)
    (s : State) : State :=
  let t := fopFmt f.fmt
  let u := { usesW (if u2 then [f.ra, f.rb] else [f.ra]) true f.rd (lat t) with unitFree := (s.cell g).pil.fpDiv }
  s.issue g u (encF code f) (f.hi != 0 || (!u2 && f.rb != 0)) noPort fun s =>
    .ok (s.updCell g fun c =>
      let r := op t (Rnd.plain c.fp.prm) (c.pil.readF f.ra).toNat (c.pil.readF f.rb).toNat
      { c with fp := c.fp.raise r.flags s.clk.cc
               pil := { c.pil.result true f.rd (BitVec.ofNat 128 r.bits) (lat t) s.clk.cc with fpDiv := s.clk.cc + lat t } })
      1 none 0

/-- FEQ, FLT, FLE (R173). -/
def fcmpShape (code : Nat) (r : Rel) (g : CellId) (f : FFmt) (s : State) : State :=
  let t := fopFmt f.fmt
  s.issueReg g (usesW [f.ra, f.rb] false f.rd 2) (encF code f) (f.hi != 0) fun c =>
    let x := t.fcmp r (c.pil.readF f.ra).toNat (c.pil.readF f.rb).toNat
    (BitVec.ofNat 128 (b2n x.1), x.2)

/-- FMA (R175): `np` negates the product, `nc` the addend. -/
def fmaShape (code : Nat) (np nc : Bool) (g : CellId) (f : FmFmt) (s : State) : State :=
  let t := fopFmt f.fmt
  s.issueReg g (usesW [f.fa, f.fb, f.fc] true f.fd (fpLat t 5 4 4)) (encFm code f) (f.low != 0) fun c =>
    let v (r : BitVec 5) : FVal := t.decodeF (c.pil.readF r).toNat
    let a := if np then (v f.fa).neg else v f.fa
    let d := if nc then (v f.fc).neg else v f.fc
    let r := t.ffma (Rnd.plain c.fp.prm) a (v f.fb) d
    (BitVec.ofNat 128 r.bits, r.flags)

/-- WOP elementwise into wd (R178, R179). `ok` says which types the function has; `rdIn` that it reads wd. -/
def wopShape (code : Nat) (ok : Elem → Bool) (rdIn : Bool) (lat : Elem → Nat) (op : Elem → Rnd → Nat → Nat → Nat → FRes)
    (g : CellId) (f : WFmt) (s : State) : State :=
  let t := (wType f.ty).getD .uint8
  s.issueReg g (usesW ([f.ra, f.rb] ++ (if rdIn then [f.rd] else [])) true f.rd (lat t)) (encW code f)
    (f.hi != 0 || (wType f.ty).isNone || !ok t) fun c =>
    let a := (c.pil.readW f.ra).toNat
    let b := (c.pil.readW f.rb).toNat
    let d := (c.pil.readW f.rd).toNat
    mapW t fun i => op t (Rnd.plain c.fp.prm) (elemAt a t.width i) (elemAt b t.width i) (elemAt d t.width i)

/-- WCMP*: one bit for each element, into sd (R178). -/
def wcmpShape (code : Nat) (r : Rel) (g : CellId) (f : WFmt) (s : State) : State :=
  let t := (wType f.ty).getD .uint8
  s.issueReg g (usesW [f.ra, f.rb] false f.rd 2) (encW code f) (f.hi != 0 || (wType f.ty).isNone) fun c =>
    let a := (c.pil.readW f.ra).toNat
    let b := (c.pil.readW f.rb).toNat
    let x := (List.range (128 / t.width)).map fun i => elemCmp t r (elemAt a t.width i) (elemAt b t.width i)
    (BitVec.ofNat 128 (ofElems 1 x.length fun i => b2n (x.getD i (false, 0)).1), orFlags (x.map Prod.snd))

/-- R207: integer w operations take 2 cc; float ones by format. -/
def wLat (l64 l : Nat) (t : Elem) : Nat := if t.isFloat then fpLat t l64 l l else 2

/-- An element as a scalar register shows it: a signed integer sign-extended, UINT8 zero-extended, a float in the low bits
(R134, R176; for WEXT DEDUCED, log 10). -/
def scalarOf (t : Elem) (x : Nat) : Nat := if t.isFloat then x else (t.decodeI x % 2 ^ 64).toNat

end Sys2Proof.Machine
end

