-- ==== Sys2Proof/Machine/MemAccess.lean ====
section
/-! DEFINITION. Pilot memory accesses (R168, R169, R206 to R214, R28, R30 to R32, R216, R231, R440): the checks of the issue
cc, reads and writes in the cell's own regions with their times, and the posted requests of the other regions. -/

namespace Sys2Proof.Machine

/-- One half of an access: bytes from `addr`, `len` of them, from byte `at'` of the whole. -/
structure Part where
  addr : Nat
  len : Nat
  at' : Nat
  pl : Place
deriving DecidableEq, Repr

/-- R209, R213: the grain of a place for an access of `n` bytes; registers and holes are not split. -/
def Place.grain (pl : Place) (n : Nat) : Nat :=
  match pl with
  | .ls _ => if n = 16 then 16 else 8
  | .win _ => if n = 16 then 16 else 8
  | .slice _ _ => 64
  | .hbm _ => 64
  | _ => 2 ^ 64

/-- R213: the one or two parts of an access of `n` bytes at `a`. -/
def State.parts (s : State) (g : CellId) (a n : Nat) : List Part :=
  let p := place s.hbmBytes g a
  let gr := p.grain n
  let low := gr - a % gr
  if n ≤ low then [{ addr := a, len := n, at' := 0, pl := p }]
  else
    [{ addr := a, len := low, at' := 0, pl := p },
     { addr := a + low, len := n - low, at' := low, pl := place s.hbmBytes g (a + low) }]

/-- R32: registers user code may touch: CELL_MBOX_IN of any cell, and CELL_MBOX_HEAD and CELL_MBOX_STAT through the own
alias. -/
def userReg (a off : Nat) : Bool :=
  off == 0x100 || (0xFFFF8000 ≤ a && a < 0x100000000 && (off == 0x108 || off == 0x110))

/-- R169, R231, R32: whether one part raises PRIV at user level. -/
def Part.priv (p : Part) (write : Bool) : Bool :=
  match p.pl with
  | .ls o => 0x3F000 < o + p.len
  | .win _ => write
  | .cellReg _ off => !userReg p.addr off
  | .hubReg _ => true
  | _ => false

/-- R28, R30, R31: whether one part raises ACCESS. `reg` says that the instruction may reach registers (LD, SD, LDA, STREL);
the access must then be an aligned doubleword of a register that exists. -/
def State.partBad (s : State) (p : Part) (n : Nat) (reg : Bool) : Bool :=
  match p.pl with
  | .hole => true
  | .hostWin => true
  | .cellReg g off => !(reg && n == 8 && off % 8 == 0 && (s.cellRegRead g off).isSome)
  | .hubReg off => !(reg && n == 8 && off % 8 == 0 && s.hubRegExists off)
  | _ => false

/-- R208, R224: the fault of an access, PRIV before ACCESS, with whether it lies in the upper half, and the first byte of the
faulting half. -/
def State.accessFault (s : State) (g : CellId) (a n : Nat) (write reg : Bool) : Option (Nat × Bool × Nat) :=
  let ps := s.parts g a n
  let user := !(s.cell g).exc.pl
  match ps.find? fun p => user && p.priv write with
  | some p => some (xPriv, p.at' != 0, p.addr)
  | none =>
    match ps.find? fun p => s.partBad p n reg with
    | some p => some (xAccess, p.at' != 0, p.addr)
    | none => none

/-- R209: result latency of an own-region load. -/
def ownLoadLat (st : OwnStore) (split : Bool) : Nat :=
  (match st with | .localStore => 3 | .window => 4 | .slice => 7) + b2n split

/-- R209: cc after issue at whose end an own-region store is visible. -/
def ownStoreVis (st : OwnStore) : Nat := match st with | .localStore => 1 | .window => 2 | .slice => 4

/-- R209: first issue cc that the port of a store allows. -/
def Pilot.portFree (p : Pilot) (st : OwnStore) : Nat :=
  match st with | .localStore => p.lsPort | .window => p.winPort | .slice => p.sliPort

/-- R209: the port after an access issued in cc `now`, in 1 or 2 cc. -/
def Pilot.usePort (p : Pilot) (st : OwnStore) (now n : Nat) : Pilot :=
  match st with
  | .localStore => { p with lsPort := now + n }
  | .window => { p with winPort := now + n }
  | .slice => { p with sliPort := now + n }

/-- R209: the first cc in which an access at `a` finds its port free. -/
def State.memPort (s : State) (g : CellId) (a : Nat) : Nat :=
  match (place s.hbmBytes g a).own g with
  | some (st, _) => (s.cell g).pil.portFree st
  | none => 0

/-- R168: the register value of loaded bytes. -/
def LoadDest.value (d : LoadDest) (bs : List Byte) : BitVec 128 := extendLoad d.ext d.wide bs

/-- R211: whether an outstanding remote store touches bytes of a part; its own pilot's load then waits (R293). -/
def Pilot.storeHolds (p : Pilot) (a n : Nat) : Bool := p.remotes.any fun r => !r.load && r.addr < a + n && a < r.addr + r.len

/-- R19, R211: post one part as a remote request; `sup` is the level of the running code, `cls` the class of its command. -/
def Pilot.post (p : Pilot) (load : Bool) (q : Part) (bs : List Byte) (dest : Option LoadDest) (total : Nat) (mate : Option Nat)
    (acquire sup : Bool) (hc cc : Nat) (cls : Class) : Pilot :=
  let r : Remote :=
    { req := p.nextReq, load := load, addr := q.addr, len := q.len, bytes := bs, dest := dest, total := total,
      at' := q.at', mate := mate, acquire := acquire, performed := false, got := none, err := false, since := hc,
      sup := sup, cc := cc, cls := q.pl.cls cls }
  { p with nextReq := p.nextReq + 1, remotes := p.remotes ++ [r] }

/-- Post every part of an access. -/
def Pilot.postAll (p : Pilot) (load : Bool) (ps : List Part) (bs : List Byte) (dest : Option LoadDest) (total : Nat)
    (acquire sup : Bool) (hc cc : Nat) (cls : Class) : Pilot :=
  match ps with
  | [q] => p.post load q (bs.take q.len) dest total none acquire sup hc cc cls
  | [q, r] =>
    (p.post load q (bs.take q.len) dest total (some (p.nextReq + 1)) acquire sup hc cc cls).post load r (bs.drop q.len) dest total
      (some p.nextReq) acquire sup hc cc cls
  | _ => p

/-- R211: whether as many more requests as an access has parts may be outstanding. -/
def Pilot.room (p : Pilot) (ps : List Part) : Bool := p.remotes.length + ps.length ≤ 8

/-- R211: cell `g`'s pilot posts an access at its present level, in cc `at'`, this one or one to come. -/
def State.postAt (s : State) (g : CellId) (load : Bool) (ps : List Part) (bs : List Byte) (dest : Option LoadDest) (n : Nat)
    (acquire : Bool) (at' : Nat) : State :=
  let hc := if at' ≤ s.clk.cc then s.clk.hc else s.clk.hc + (s.clk.span (at' - s.clk.cc)).1
  s.updCell g fun c => { c with pil := c.pil.postAll load ps bs dest n acquire c.exc.pl hc at' (s.cellClass g) }

/-- R211: an access posted in this cc. -/
def State.postParts (s : State) (g : CellId) (load : Bool) (ps : List Part) (bs : List Byte) (dest : Option LoadDest) (n : Nat)
    (acquire : Bool) : State := s.postAt g load ps bs dest n acquire s.clk.cc

/-- The own store of every part, if all parts lie in one. -/
def ownParts (g : CellId) (ps : List Part) : Option (OwnStore × Nat) :=
  match ps with
  | [q] => q.pl.own g
  | [q, r] =>
    match q.pl.own g, r.pl.own g with
    | some (a, o), some (b, _) => if a = b then some (a, o) else none
    | _, _ => none
  | _ => none

/-- R293: a read of an own store by the pilot in this cc: the bytes, and whether they met an uncorrectable error. -/
def State.pilotRead (s : State) (g : CellId) (st : OwnStore) (o n : Nat) : List Byte × Bool :=
  (s.readOwn g st o n s.clk.cc (some s.clk.cc), s.badHome g (st.place g o) n)

/-- R209, R213: the reads of a load from an own store: the lower half in the cc after its issue in cc `now`, the upper one cc later. -/
def ownReads (st : OwnStore) (o : Nat) (ps : List Part) (now : Nat) : List LoadRead :=
  ps.map fun q => { cc := now + 1 + (if q.at' = 0 then 0 else 1), src := .own st (o + q.at') q.len, addr := q.addr }

/-- R209: a load of the cell's own regions, issued in cc `now` with latency `lat`, whose reads are to come. -/
def Pilot.loading (p : Pilot) (d : LoadDest) (reads : List LoadRead) (lat now : Nat) : Pilot :=
  let w : PilotWb :=
    { wide := d.wide, reg := d.reg, val := 0, due := now + lat - 1, bad := false, load := true, reads := reads, ext := d.ext,
      since := now }
  { p with wbs := p.wbs ++ [w] }

/-- R209, R213: a load from an own store issued now. -/
def State.ownLoad (s : State) (g : CellId) (d : LoadDest) (st : OwnStore) (o : Nat) (ps : List Part) : State :=
  let now := s.clk.cc
  let split := ps.length == 2
  s.updCell g fun c =>
    { c with pil := (c.pil.usePort st now (1 + b2n split)).loading d (ownReads st o ps now) (ownLoadLat st split) now }

/-- R213: a store's waiting entries, one for each half. -/
def Cell.queueParts (c : Cell) (st : OwnStore) (o : Nat) (ps : List Part) (bs : List Byte) (now : Nat) : Cell :=
  ps.foldl (fun c q => c.queueStore
    { by' := .pilot, store := st, off := o + q.at', bytes := (bs.drop q.at').take q.len,
      vis := now + ownStoreVis st + (if q.at' = 0 then 0 else 1), since := now }) c

/-- R209: an own register is read, two cc after the load's issue. -/
def State.ownRegLoad (s : State) (g : CellId) (d : LoadDest) (off a : Nat) : State :=
  s.updCell g fun c =>
    { c with pil := c.pil.loading d [{ cc := s.clk.cc + 2, src := .reg off, addr := a }] 4 s.clk.cc }

/-- R211, R293, R298: a load that goes to another region: it waits while eight requests are outstanding, or a store of its bytes is. -/
def State.remoteLoad (s : State) (g : CellId) (d : LoadDest) (a n : Nat) (acquire : Bool) : Res :=
  let p := (s.cell g).pil
  let ps := s.parts g a n
  if !p.room ps || p.storeHolds a n then .stall 4
  else
    .ok ((s.postParts g true ps [] (some d) n acquire).updCell g fun c => { c with pil := { c.pil with hold := c.pil.hold || acquire } })
      1 none 0

/-- R206 to R214: the body of a load of `n` bytes at `a`. -/
def State.load (s : State) (g : CellId) (d : LoadDest) (a n : Nat) (reg acquire : Bool) : Res :=
  match s.accessFault g a n false reg with
  | some (code, half, addr) => .trap code false half (w64 addr) 0
  | none =>
    let ps := s.parts g a n
    match ownParts g ps with
    | some (st, o) => .ok (s.ownLoad g d st o ps) 1 none 0
    | none =>
      match place s.hbmBytes g a with
      | .cellReg h off => if h = g then .ok (s.ownRegLoad g d off a) 1 none 0 else s.remoteLoad g d a n acquire
      | _ => s.remoteLoad g d a n acquire

/-- R211: a store that goes to another region. -/
def State.remoteStore (s : State) (g : CellId) (a : Nat) (bs : List Byte) : Res :=
  let ps := s.parts g a bs.length
  if !(s.cell g).pil.room ps then .stall 4 else .ok (s.postParts g false ps bs none bs.length false) 1 none 0

/-- R206 to R214: the body of a store of bytes at `a`. -/
def State.store (s : State) (g : CellId) (a : Nat) (bs : List Byte) (reg : Bool) : Res :=
  match s.accessFault g a bs.length true reg with
  | some (code, half, addr) => .trap code true half (w64 addr) 0
  | none =>
    let ps := s.parts g a bs.length
    match ownParts g ps with
    | some (st, o) =>
      .ok (s.updCell g fun c =>
        let c' := c.queueParts st o ps bs s.clk.cc
        { c' with pil := c'.pil.usePort st s.clk.cc ps.length }) 1 none 0
    | none =>
      match place s.hbmBytes g a with
      | .cellReg h off =>
        if h = g then
          let w : PendReg := { off := off, val := w64 (leNat bs), vis := s.clk.cc + 2 }
          .ok (s.updCell g fun c => { c with regs := c.regs ++ [w] }) 1 none 0
        else s.remoteStore g a bs
      | _ => s.remoteStore g a bs

/-- R209: latency and first issue cc of a load at `a` from the cell's own regions; none for the others. -/
def State.ownShape (s : State) (g : CellId) (a n : Nat) : Option (Nat × Nat) :=
  let ps := s.parts g a n
  match ownParts g ps with
  | some (st, _) => some (ownLoadLat st (ps.length == 2), (s.cell g).pil.portFree st)
  | none =>
    match place s.hbmBytes g a with
    | .cellReg h _ => if h = g then some (4, 0) else none
    | _ => none

/-- R206, R209: the first cc in which a load of `n` bytes at `a` finds its port free and a write port of its file free in the
cc in which its result lands. -/
def State.loadPort (s : State) (g : CellId) (u : Uses) (a n : Nat) : Nat :=
  match s.ownShape g a n with
  | some (lat, free) =>
    let p := (s.cell g).pil
    p.portReady { u with lat := lat } (max s.clk.cc free) p.pendings
  | none => 0

/-- R168: the address of formats I and S. -/
def effAddr (p : Pilot) (ra : BitVec 5) (imm : BitVec 16) : Nat := (p.readS ra + sextI imm).toNat

/-- A load instruction of format I. -/
def loadShape (op n : Nat) (wide : Bool) (ext : Ext) (reg : Bool) (g : CellId) (f : IFmt) (s : State) : State :=
  let u : Uses := { s := [f.ra], w := [], dst := some (wide, f.rd), lat := 0, unitFree := 0, mem := true }
  s.issue g u (encI op f) false (fun s => s.loadPort g u (effAddr (s.cell g).pil f.ra f.imm) n) fun s =>
    s.load g { wide := wide, reg := f.rd, ext := ext } (effAddr (s.cell g).pil f.ra f.imm) n reg false

/-- A store instruction of format S. -/
def storeShape (op n : Nat) (wide : Bool) (reg : Bool) (g : CellId) (f : SFmt) (s : State) : State :=
  let u : Uses :=
    { s := if wide then [f.ra] else [f.ra, f.rs], w := if wide then [f.rs] else [], dst := none, lat := 1, unitFree := 0,
      mem := true }
  s.issue g u (encS op f) false (fun s => s.memPort g (effAddr (s.cell g).pil f.ra f.imm)) fun s =>
    let p := (s.cell g).pil
    let v := if wide then (p.readW f.rs).toNat else (p.readS f.rs).toNat
    s.store g (effAddr p f.ra f.imm) (leBytes v n) reg

/-! Reads of homes outside the cell (R210, R256, R272, R309, R457). -/

/-- What a read of another region brings. -/
inductive Fetched where
  | data (bs : List Byte)
  /-- An uncorrectable error (R440, R457). -/
  | ecc
  /-- Refused: the pseudo-channel is fenced (R272). -/
  | refused
deriving DecidableEq, Repr

/-- Line number of a cached line as a 256-byte unit of the address map (R26). -/
def lineUnit (num : Nat) : Nat := 0x10000000000 / 256 + num

/-- R260, R261, R309: the lines an ACQR invalidates. -/
def AcqrState.covers (r : AcqrState) (num : Nat) : Bool := r.whole || (r.lo ≤ lineUnit num && lineUnit num < r.hi)

/-- R260: places in the order of an invalidation: the lines of a range, or of the whole form the sets, 16 in each cc (512 lines an hc). -/
def AcqrState.places (r : AcqrState) : Nat := if r.whole then 8192 else r.hi - r.lo

/-- A line's place: its line of the range, or its set by sixteens (log 51). -/
def AcqrState.placeOf (r : AcqrState) (num : Nat) : Nat := if r.whole then setOf num / 16 else lineUnit num - r.lo

/-- R260, R261: places passed before cc `now`: one each cc, the last of them in the cc before `due`. -/
def AcqrState.passed (r : AcqrState) (now : Nat) : Nat := min r.places (now - (r.due - r.places))

/-- R261: the invalidations that cells of tile `t` run have passed what they pass before this cc. A line that was filled after it had been
passed stays. -/
def State.sweep (s : State) (t : Nat) : State :=
  s.cells.foldl (fun s e =>
    match e.2.pil.acqr with
    | some r =>
      if e.1 / 64 = t then
        let n := r.passed s.clk.cc
        let gone (num : Nat) : Bool := r.covers num && r.pos ≤ r.placeOf num && r.placeOf num < n
        ({ s with hbm := s.hbm.updCache t fun c => c.drop gone } : State).updCell (BitVec.ofNat 8 e.1) fun c =>
          { c with pil := { c.pil with acqr := some { r with pos := n } } }
      else s
    | none => s) s

/-- R256: HBM offset `a`'s line is filled for tile `t`, from sectors without an uncorrectable error (R264), unless such a fill is in flight,
which KEEP then marks. -/
def State.startFill (s : State) (t a : Nat) (keep : Bool) : State :=
  let num := a / 256
  if s.hbm.mem.anyBad hbmUnit (num * 256) 256 then s
  else if (s.hbm.cache t).fills.any fun f => f.num == num && f.live then
    { s with hbm := s.hbm.updCache t fun c =>
        { c with fills := c.fills.map fun f => if f.num = num && f.live then { f with keep := f.keep || keep } else f } }
  else
    let f : Fill := { num := num, data := s.hbm.mem.readBytes (num * 256) 256, keep := keep, live := true }
    let s := s.hbmCorrect (unitMet hbmUnit (num * 256) 256)
    { s with hbm := s.hbm.updCache t fun c => { c with fills := c.fills ++ [f] } }

/-- R264, R271, R440: a read of HBM itself, of `n` bytes at offset `a`: it corrects, or meets an uncorrectable error, which counts. -/
def State.hbmData (s : State) (a n : Nat) : State × Fetched :=
  if s.hbm.mem.anyBad hbmUnit a n then (s.countUe a, .ecc)
  else (s.hbmCorrect (unitMet hbmUnit a n), .data (s.hbm.mem.readBytes a n))

/-- R256, R257, R259, R272: a read of HBM offset `a` by engine `engine` of cell `g`. Where `look` holds it goes through the tile cache: `hit` is
what a hit leaves there, and a miss is served from HBM; a fill then starts if `fill` says so, marked keep or not. -/
def State.cacheRead (s : State) (g : CellId) (engine : Byte) (a n : Nat) (look : Bool) (hit : TileCache → TileCache)
    (fill : Option Bool) : State × Fetched :=
  let t := tileOf g
  let s := s.sweep t
  if s.hbm.fencedAt a then (s, .refused)
  else
    let s := if look then s.cacheCheck g engine a n else s
    match (if look then (s.hbm.cache t).find (a / 256) else none) with
    | some l => ({ s with hbm := s.hbm.updCache t hit }, .data ((l.data.drop (a % 256)).take n))
    | none =>
      let x := s.hbmData a n
      match x.2, fill with
      | .data d, some keep => (x.1.startFill t a keep, .data d)
      | _, _ => x

/-- R256, R257: a NORMAL read of HBM offset `a` by cell `g`'s pilot: a hit is served from the cache and becomes the most recently used; a miss
is served from HBM and starts a fill. LDA bypasses the cache. -/
def State.hbmRead (s : State) (g : CellId) (a n : Nat) (bypass : Bool) : State × Fetched :=
  s.cacheRead g 0 a n (!bypass) (fun c => c.touch (a / 256)) (if bypass then none else some false)

/-- A read at a memory home by cell `g`'s pilot. -/
def State.fetchHome (s : State) (g : CellId) (pl : Place) (n : Nat) (bypass : Bool) : State × Fetched :=
  match pl with
  | .hbm o => s.hbmRead g o n bypass
  | _ => if s.badHome g pl n then (s, .ecc) else (s.correctAt g pl n, .data (s.readHome g pl n))

/-- R15, R210: mesh hops from a cell's row to its tile's hub-facing row. -/
def edgeRow (g : CellId) : Nat := if tileOf g / 2 = 0 then 7 - bits g.toNat 3 3 else bits g.toNat 3 3

/-- R42: hc of the shortest path between two cells: hops, boundary crossings and half crossings. -/
def pathHc (a b : CellId) : Nat :=
  let row (g : CellId) : Nat := bits g.toNat 3 3
  let col (g : CellId) : Nat := bits g.toNat 0 3
  let dist (x y : Nat) : Nat := if x < y then y - x else x - y
  let half (g : CellId) : Nat := tileOf g / 2
  if half a ≠ half b then 2 * (edgeRow a + edgeRow b) + 13
  else
    let x (g : CellId) : Nat := col g + 8 * (tileOf g % 2)
    2 * (dist (x a) (x b) + dist (row a) (row b)) + 2 * b2n (tileOf a != tileOf b)

/-- R42: lat_cc, with its two clock crossings, at nominal clocks. -/
def latCc (a b : CellId) : Nat := 5 + 2 * pathHc a b

/-- R5, R493: cc at the present divider in which `h` hc have passed. -/
def Clock.ccOf (c : Clock) (h : Nat) : Nat := (128 * h + c.d.toNat - 1) / c.d.toNat

/-- R205, R210, R42: the cc and the hc part of an unsplit access to a region outside the cell, up to the end of the cc in which a load's value
lands or a store's acknowledgement reaches the pilot; `hit` for HBM, of whose figures 6 cc lie in the cell's clock (log 67). -/
def remoteParts (g : CellId) (chan : Option ChanId) (pl : Place) (hit : Bool) : Nat × Nat :=
  match pl with
  | .slice h _ => (14, 2 * pathHc g h)
  | .cellReg h _ => (12, 2 * pathHc g h)
  | .hubReg _ => (5, 13 + 4 * edgeRow g)
  | .hbm _ =>
    if hit then (6, 15)
    else
      match chan with
      | some p =>
        let tile := p.toNat / 32 / 2
        (6, if tile = tileOf g then 117 else if tile / 2 = tileOf g / 2 then 121 else 143)
      | none => (6, 117)
  | _ => (1, 0)

/-- R205, R210: L of an unsplit load from a region outside the cell, and the cc after which a store's acknowledgement reaches the pilot: at the
nominal clock R210's figures; where the governor stretches the clock, the hc part takes fewer cc. -/
def Clock.remoteLat (c : Clock) (g : CellId) (chan : Option ChanId) (pl : Place) (hit : Bool) : Nat :=
  let p := remoteParts g chan pl hit
  p.1 + c.ccOf p.2

end Sys2Proof.Machine
end

