-- ==== Sys2Proof/Machine/PilotMem.lean ====
section
/-! DEFINITION. Meanings of the pilot's loads and stores (R168), of the landing of their results (R207), and of LDA and ACQR
(R170, R298, R299). -/

namespace Sys2Proof.Machine

/-- R168: loads a sign-extended byte. -/
def execLb (g : CellId) (f : IFmt) (s : State) : Out := .next (loadShape 0b010000 1 false .sign false g f s)

/-- R168: loads a sign-extended halfword. -/
def execLh (g : CellId) (f : IFmt) (s : State) : Out := .next (loadShape 0b010001 2 false .sign false g f s)

/-- R168: loads a sign-extended word. -/
def execLw (g : CellId) (f : IFmt) (s : State) : Out := .next (loadShape 0b010010 4 false .sign false g f s)

/-- R168: loads a doubleword; registers too (R31). -/
def execLd (g : CellId) (f : IFmt) (s : State) : Out := .next (loadShape 0b010011 8 false .zero true g f s)

/-- R168: loads a zero-extended byte. -/
def execLbu (g : CellId) (f : IFmt) (s : State) : Out := .next (loadShape 0b010100 1 false .zero false g f s)

/-- R168: loads a zero-extended halfword. -/
def execLhu (g : CellId) (f : IFmt) (s : State) : Out := .next (loadShape 0b010101 2 false .zero false g f s)

/-- R168: loads a zero-extended word. -/
def execLwu (g : CellId) (f : IFmt) (s : State) : Out := .next (loadShape 0b010110 4 false .zero false g f s)

/-- R168: loads 8 bytes into fd; the rest is zeroed (R160). -/
def execFld (g : CellId) (f : IFmt) (s : State) : Out := .next (loadShape 0b011100 8 true .zero false g f s)

/-- R168: loads 4 bytes into fd; the rest is zeroed. -/
def execFlw (g : CellId) (f : IFmt) (s : State) : Out := .next (loadShape 0b011101 4 true .zero false g f s)

/-- R168: loads 16 bytes into wd. -/
def execWld (g : CellId) (f : IFmt) (s : State) : Out := .next (loadShape 0b100000 16 true .zero false g f s)

/-- R168: stores a byte. -/
def execSb (g : CellId) (f : SFmt) (s : State) : Out := .next (storeShape 0b011000 1 false false g f s)

/-- R168: stores a halfword. -/
def execSh (g : CellId) (f : SFmt) (s : State) : Out := .next (storeShape 0b011001 2 false false g f s)

/-- R168: stores a word. -/
def execSw (g : CellId) (f : SFmt) (s : State) : Out := .next (storeShape 0b011010 4 false false g f s)

/-- R168: stores a doubleword; registers too (R31). -/
def execSd (g : CellId) (f : SFmt) (s : State) : Out := .next (storeShape 0b011011 8 false true g f s)

/-- R168: stores 8 bytes of fs. -/
def execFsd (g : CellId) (f : SFmt) (s : State) : Out := .next (storeShape 0b011110 8 true false g f s)

/-- R168: stores bits [31:0] of fs. -/
def execFsw (g : CellId) (f : SFmt) (s : State) : Out := .next (storeShape 0b011111 4 true false g f s)

/-- R168: stores 16 bytes of ws. -/
def execWst (g : CellId) (f : SFmt) (s : State) : Out := .next (storeShape 0b100001 16 true false g f s)

/-- R207, R440: the earliest pilot result on its way lands at the end of its cc: time passes up to then. With none on its way
nothing happens. -/
def execPilotWriteback (g : CellId) (s : State) : Out :=
  match (sortBy PilotWb.due (s.cell g).pil.wbs).head? with
  | some w => .next (if s.live g then s.until (w.due + 1) else s)
  | none => .next s

/-! LDA and ACQR. -/

/-- R170: the address of LDA and STREL. -/
def syncAddr (p : Pilot) (f : YFmt) : Nat := (p.readS f.ra + f.imm.signExtend 64 * 8).toNat

/-- R171: a misaligned LDA or STREL faults ACCESS; PRIV comes before it (R224). -/
def State.syncFault (s : State) (g : CellId) (a : Nat) (write : Bool) : Option Res :=
  match s.accessFault g a 8 write true with
  | some (code, half, addr) =>
    if code = xPriv then some (.trap xPriv write half (w64 addr) 0)
    else some (.trap xAccess write (a % 8 == 0 && half) (w64 (if a % 8 = 0 then addr else a)) 0)
  | none => if a % 8 = 0 then none else some (.trap xAccess write false (w64 a) 0)

/-- R298: later memory accesses wait until an own-region LDA has returned. -/
def State.holdUntil (s : State) (g : CellId) (t : Nat) : State :=
  s.updCell g fun c => { c with pil := { c.pil with memFree := max c.pil.memFree t } }

/-- R209: L of an aligned doubleword in the cell's own regions; 0 for the others, whose response ends the hold. -/
def State.ldaLat (s : State) (g : CellId) (a : Nat) : Nat :=
  let pl := place s.hbmBytes g a
  match pl.own g with
  | some (st, _) => ownLoadLat st false
  | none =>
    match pl with
    | .cellReg h _ => if h = g then 4 else 0
    | _ => 0

/-- R170, R171, R298: an acquire load of an aligned doubleword, past the tile cache. -/
def execLda (g : CellId) (f : YFmt) (s : State) : Out :=
  let u : Uses := { s := [f.ra], w := [], dst := some (false, f.rd), lat := 0, unitFree := 0, mem := true }
  .next (s.issue g u (encY 0b00 f) false (fun s => s.loadPort g u (syncAddr (s.cell g).pil f) 8) fun s =>
    let a := syncAddr (s.cell g).pil f
    match s.syncFault g a false with
    | some r => r
    | none =>
      match s.load g { wide := false, reg := f.rd, ext := .zero } a 8 true true with
      | .ok s' d pc why => .ok (s'.holdUntil g (s.clk.cc + s.ldaLat g a)) d pc why
      | r => r)

/-- R297, R299: the cc after every earlier own load has landed, a custom instruction's too. -/
def Pilot.loadsDone (p : Pilot) : Nat :=
  let a := p.wbs.foldl (fun a w => if w.load then max a (w.due + 1) else a) 0
  p.micros.foldl (fun a m => if m.req.isNone then max a (m.due + 1) else a) a

/-- R297, R299: whether a remote load is outstanding. -/
def Pilot.remoteLoads (p : Pilot) : Bool := p.remotes.any Remote.load

/-- R260: the invalidation that an ACQR at module or chain scope starts in cc `now`; none when it covers no bytes. -/
def acqrRun (whole : Bool) (a len now : Nat) : Option AcqrState :=
  if whole then some { whole := true, lo := 0, hi := 0, due := now + 8204 }
  else if len = 0 then none
  else
    let lo := a / 256
    let hi := (a + len - 1) / 256 + 1
    some { whole := false, lo := lo, hi := hi, due := now + 12 + (hi - lo) }

/-- R170, R171, R260, R299: an acquire fence. At module and chain scope it starts the invalidation of the tile's lines, and
later memory accesses are held until ACQR_COMPLETE. -/
def execAcqr (g : CellId) (f : YFmt) (s : State) : Out :=
  let u : Uses := { s := [f.ra, f.rd], w := [], dst := none, lat := 1, unitFree := 0, mem := true }
  .next (s.issue g u (encY 0b11 f) (f.imm != 0) (fun s => (s.cell g).pil.loadsDone) fun s =>
    let p := (s.cell g).pil
    if p.remoteLoads then .stall 4
    else if f.scope.toNat < 2 then .ok s 1 none 0
    else
      match acqrRun (f.rd == 0) (p.readS f.ra).toNat (p.readS f.rd).toNat s.clk.cc with
      | none => .ok s 1 none 0
      | some r => .ok (s.updCell g fun c => { c with pil := { c.pil with acqr := some r, hold := true } }) 1 none 0)

/-- R261, R299: the invalidation has reached its last line: its lines are gone from the own tile's cache, and the held accesses
go on. With no ACQR running nothing happens. -/
def execAcqrComplete (g : CellId) (s : State) : Out :=
  match (s.cell g).pil.acqr with
  | none => .next s
  | some r =>
    if s.live g then
      .next (s.untilThen r.due fun s => (s.sweep (tileOf g)).updCell g fun c => { c with pil := { c.pil with acqr := none, hold := false } })
    else .next s

end Sys2Proof.Machine
end

