-- ==== Sys2Proof/Machine/PilotSys.lean ====
section
/-! DEFINITION. Meanings of the system functions (R177, R189, R190, R218, R234 to R250), of the engine functions that only wait
or read (R188), and of INTERRUPT_ENTRY and GUARD_WINDOW_CLOSE. -/

namespace Sys2Proof.Machine

/-- Major opcode SYS (R164). -/
def sysOp : Nat := 0b101111

/-- Major opcode ENG (R164). -/
def engOp : Nat := 0b110110

/-- R163: fields of format K that a function does not use must be 0. -/
def kIllegal (f : KFmt) (rd ra imm : Bool) : Bool := (!rd && f.rd != 0) || (!ra && f.ra != 0) || (!imm && f.imm != 0)

/-- R234 to R237: enter gate n := imm10. It waits for every s register. -/
def execGate (g : CellId) (f : KFmt) (s : State) : Out :=
  let insn := encK sysOp 0x01 f
  let u : Uses := { Uses.none' with s := (List.range 32).map (BitVec.ofNat 5) }
  .next (s.issue g u insn (kIllegal f false false true) noPort fun s =>
    .done (s.updCell g fun c => (c.gate f.imm.toNat insn s.clk.cc).engine 0 (s.clk.cc + 1) 0))

/-- R238 to R240, R249: return from an exception. It writes s1 and s2, so it waits for both (R206). -/
def execRetx (g : CellId) (f : KFmt) (s : State) : Out :=
  let insn := encK sysOp 0x02 f
  .next (s.issue g { Uses.none' with s := [1, 2] } insn (kIllegal f false false false) noPort fun s =>
    .done (s.updCell g fun c => (c.retx insn s.clk.cc).engine 0 (s.clk.cc + 1) 0))

/-- R246: open a guard window of imm10 + 1 cc from the next cc on; while one is open nothing happens. -/
def execGuard (g : CellId) (f : KFmt) (s : State) : Out :=
  .next (s.issue g Uses.none' (encK sysOp 0x03 f) (kIllegal f false false true) noPort fun s =>
    .ok (s.updCell g fun c =>
      if c.exc.guarded s.clk.cc then c
      else { c with exc := { c.exc with guardEnd := some (s.clk.cc + f.imm.toNat + 1), guardFrom := s.clk.cc + 1 } }) 1 none 0)

/-- R246: the open guard window reaches its last cc and closes. With none open nothing happens. -/
def execGuardWindowClose (g : CellId) (s : State) : Out :=
  match (s.cell g).exc.guardEnd with
  | none => .next s
  | some l =>
    if s.live g then
      .next (s.untilThen (l + 1) fun s => s.updCell g fun c => { c with exc := { c.exc with guardEnd := none } })
    else .next s

/-- R218: wait for earlier window stores, then fetch afresh. -/
def execIfence (g : CellId) (f : KFmt) (s : State) : Out :=
  .next (s.issueFor 5 g Uses.none' (encK sysOp 0x04 f) (kIllegal f false false false)
    (fun s => (s.cell g).windowSettled s.clk.cc) fun s => .ok s 7 none 5)

/-- R150: the first cc after all vector work issued so far: vector, predicate and scalar results written, port idle, stores visible. -/
def Cell.vecDone (c : Cell) : Nat :=
  let a := c.vec.flight.foldl (fun a f => max a (f.due + 1)) c.vec.port
  let b := c.pil.wbs.foldl (fun a w => if w.vec then max a (w.due + 1) else a) a
  c.stores.foldl (fun a p => if p.by' == .vector then max a (p.vis + 1) else a) b

/-- R297: the first cc after every earlier own store and own register write of the pilot. -/
def Cell.storesDone (c : Cell) : Nat :=
  let a := c.stores.foldl (fun a p => if p.by' == .pilot then max a (p.vis + 1) else a) 0
  c.regs.foldl (fun a p => max a (p.vis + 1)) a

/-- R190, R305, R342: the end of a kernel: the pilot idles, and the exit word goes to the hub. -/
def Cell.endKernel (c : Cell) (exit : Word64) : Cell :=
  let out := match c.run with | some r => c.out ++ [.ended r.cmd exit (if c.mov.valid then some c.mov.code else none) c.arr.floor] | none => c.out
  { c with pil := { c.pil with mode := .idle }, run := none, out := out }

/-- R190, R305: the first cc after the vector work and the pilot's own accesses that KEND waits for. -/
def Cell.kendAt (c : Cell) : Nat := max c.vecDone (max c.storesDone c.pil.loadsDone)

/-- R190: what else KEND waits for: passes, mover commands and remote requests; and after an abort the kernel does not end through KEND
(log 52). -/
def Cell.kendHeld (c : Cell) : Bool :=
  !(c.arr.passes.isEmpty && c.mov.cmds.isEmpty && c.pil.remotes.isEmpty) || c.exc.pabort

/-- R190, R191, R305: KEND waits for passes, vector work, mover commands and, as a release at module scope, for its own accesses; then
the kernel ends with exit word ra. -/
def execKend (g : CellId) (f : KFmt) (s : State) : Out :=
  .next (s.issueOpen g { Uses.none' with s := [f.ra] } (encK sysOp 0x05 f) (kIllegal f false true false)
    (fun s => (s.cell g).kendAt) 0x0C fun s =>
    if (s.cell g).kendHeld then .stall 0x0C
    else .done (s.updCell g fun c => (c.endKernel (c.pil.readS f.ra)).engine 0 (s.clk.cc + 1) 0))

/-- R189: stall until the mailbox holds a word. -/
def execMwait (g : CellId) (f : KFmt) (s : State) : Out :=
  .next (s.issue g Uses.none' (encK sysOp 0x06 f) (kIllegal f false false false) noPort fun s =>
    if (s.cell g).mbox.words.isEmpty then .stall 0x0B else .ok s 1 none 0)

/-- R177: the word FGETS reads. -/
def FpState.getWord (f : FpState) : Nat := f.stat % 2 ^ 21 + f.prm.toNat * 2 ^ 24 + f.vrm.toNat * 2 ^ 26

/-- R177: flags and rounding modes into sd. -/
def execFgets (g : CellId) (f : KFmt) (s : State) : Out :=
  .next (s.issueReg g (usesS [] f.rd 2) (encK sysOp 0x08 f) (kIllegal f true false false) fun c =>
    (BitVec.ofNat 128 c.fp.getWord, 0))

/-- R177, R62: PRM := sa[1:0], VRM := sa[3:2], from the following cc on. -/
def execFsetm (g : CellId) (f : KFmt) (s : State) : Out :=
  .next (s.issue g { Uses.none' with s := [f.ra] } (encK sysOp 0x09 f) (kIllegal f false true false) noPort fun s =>
    .ok (s.updCell g fun c => c.writeAt 0x0200 (c.pil.readS f.ra) s.clk.cc false) 1 none 0)

/-- R177, R69: clear each flag that is 1 in sa, at the end of the cc. -/
def execFclrf (g : CellId) (f : KFmt) (s : State) : Out :=
  .next (s.issue g { Uses.none' with s := [f.ra] } (encK sysOp 0x0A f) (kIllegal f false true false) noPort fun s =>
    .ok (s.updCell g fun c => c.writeAt 0x0208 (c.pil.readS f.ra) s.clk.cc false) 1 none 0)

/-- R101, R188: stall until at most imm10 passes are outstanding. -/
def execAwait (g : CellId) (f : KFmt) (s : State) : Out :=
  .next (s.issue g Uses.none' (encK engOp 0x02 f) (kIllegal f false false true) noPort fun s =>
    if f.imm.toNat < (s.cell g).arr.passes.length then .stall 0x08 else .ok s 1 none 0)

/-- R188: stall until every mover command with a ticket ≤ ra has completed. -/
def execMvwait (g : CellId) (f : KFmt) (s : State) : Out :=
  .next (s.issue g { Uses.none' with s := [f.ra] } (encK engOp 0x05 f) (kIllegal f false true false) noPort fun s =>
    let c := s.cell g
    if c.mov.cmds.any fun m => m.ticket ≤ (c.pil.readS f.ra).toNat then .stall 0x0A else .ok s 1 none 0)

/-- R188: the largest ticket up to which every command has completed. -/
def Mover.doneTo (m : Mover) : Nat := m.cmds.foldl (fun a c => min a (c.ticket - 1)) m.issued

/-- R188: MVDONE. R207 gives its result no latency; the model takes 1 (log 80). -/
def execMvdone (g : CellId) (f : KFmt) (s : State) : Out :=
  .next (s.issueReg g (usesS [] f.rd 1) (encK engOp 0x06 f) (kIllegal f true false false) fun c =>
    (BitVec.ofNat 128 c.mov.doneTo, 0))

/-- R224, R232: at the next instruction boundary a pending, enabled interrupt is taken; with none nothing happens. A pilot that
is idle, or waits in a VORB (R154) or for a read of a repeat (R186), has no boundary. -/
def execInterruptEntry (g : CellId) (s : State) : Out :=
  let s0 := s
  let s := s.seqDone g 4
  let c := s.cell g
  if s.live g && c.pil.mode != .idle && c.vec.vorb.isNone && (c.pil.rep.all fun r => r.waits.isNone) then
    let s1 := s.until (match c.pil.rep with | some r => r.next | none => c.pil.next)
    match if s1.clk.still then none else (s1.cell g).exc.takeable s1.clk.cc with
    | some code =>
      .next (s1.takeTrap g (interruptTrap code (s1.cell g).pil.pc))
    | none => .next s0
  else .next s0

end Sys2Proof.Machine
end

