-- ==== Sys2Proof/Machine/VecOps.lean ====
section
/-! DEFINITION. Operands and shapes of the long-vector unit (R125 to R153): elements, predicates, stochastic-rounding draws
(R59), and the issue of a vector instruction (R147, R148). -/

namespace Sys2Proof.Machine

/-! Registers. -/

/-- R125: v register `r` as a number. -/
def Vec.reg (v : Vec) (r : BitVec 5) : Nat := (v.v.get 0 r.toNat).toNat

/-- R125: m register `r`; m0 reads as ones. -/
def Vec.mreg (v : Vec) (r : BitVec 4) : Nat := if r = 0 then 2 ^ 1024 - 1 else (v.m.get 0 r.toNat).toNat

/-- R126: the element type of VT. -/
def Vec.type (v : Vec) : Elem := (Elem.ofCode v.vt.toNat).getD .fp64

/-- R126: VLMAX of the current VT. -/
def Vec.max (v : Vec) : Nat := vlmax v.vt.toNat

/-- R127: the active elements under mp, ascending. -/
def Vec.active (v : Vec) (mp : BitVec 4) : List Nat :=
  let m := v.mreg mp
  (List.range v.vl).filter fun i => bit m i

/-- Bits of elements of width `w`, each given with its index. -/
def lanesVal (w : Nat) (l : List (Nat × Nat)) : Nat := l.foldl (fun a e => a ||| ((e.2 % 2 ^ w) <<< (w * e.1))) 0

/-- The bits those elements occupy. -/
def lanesMask (w : Nat) (l : List Nat) : Nat := l.foldl (fun a i => a ||| ((2 ^ w - 1) <<< (w * i))) 0

/-- R127: a write of elements of width `w` to a v register. -/
def laneWrite (r : BitVec 5) (w : Nat) (l : List (Nat × Nat)) : VecWrite :=
  { dest := .v r, mask := BitVec.ofNat 8192 (lanesMask w (l.map Prod.fst)), val := BitVec.ofNat 8192 (lanesVal w l) }

/-- R127: a write of predicate bits. -/
def predWrite (r : BitVec 4) (l : List (Nat × Bool)) : VecWrite :=
  { dest := .m r, mask := BitVec.ofNat 8192 (lanesMask 1 (l.map Prod.fst)),
    val := BitVec.ofNat 8192 (lanesVal 1 (l.map fun e => (e.1, b2n e.2))) }

/-- What a loop over active elements has formed: generator state, elements, flags. -/
structure Lanes where
  srv : Word32
  out : List (Nat × Nat)
  flags : FFlags

/-- Run `f` over elements in ascending order (R59). `sr` says that the result takes draws under SR. -/
def runLanes (fp : FpState) (sr : Bool) (l : List Nat) (f : Nat → Rnd → FRes) : Lanes :=
  l.foldl (fun a i =>
    let r := laneRnd fp.vrm sr a.srv
    let x := f i r.1
    { srv := r.2, out := a.out ++ [(i, x.bits)], flags := a.flags ||| x.flags }) { srv := fp.srv, out := [], flags := 0 }

/-! Issue. -/

/-- What a vector instruction does in its issue cc. -/
structure VOut where
  writes : List VecWrite
  lat : Nat
  flags : FFlags
  srv : Word32
  /-- Element width of the destination (R152). -/
  ew : Nat
  /-- A scalar result: file, register, value, with latency 3 (R148). -/
  scalar : Option (Bool × BitVec 5 × BitVec 128)

/-- R148, R150: a vector instruction's scalar result, on its way. -/
def Pilot.vecResult (p : Pilot) (wide : Bool) (r : BitVec 5) (v : BitVec 128) (lat now : Nat) : Pilot :=
  if !wide && r = 0 then p
  else
    let w : PilotWb := { wide := wide, reg := r, val := v, due := now + lat - 1, bad := false, load := false, vec := true }
    { p with wbs := p.wbs ++ [w] }

/-- R147: put an instruction in flight; the vector engine is busy until it lands (R458). -/
def Cell.vecLaunch (c : Cell) (o : VOut) (now : Nat) : Cell :=
  let c1 : Cell := { c with fp := { c.fp with srv := o.srv } }
  match o.scalar with
  | some (wide, r, v) => { c1 with pil := c1.pil.vecResult wide r v o.lat now }
  | none =>
    let f : VecFlight := { writes := o.writes, flags := o.flags, due := now + o.lat - 1, ew := o.ew, pc := c.pil.pc }
    (({ c1 with vec := { c1.vec with flight := c1.vec.flight ++ [f] } } : Cell)).engine 1 (now + o.lat) 0

/-- The issue of a vector instruction: `f` gives what it does, or none where R135 makes it illegal. -/
def vecIssue (g : CellId) (u : Uses) (insn : Word32) (f : Cell → Option VOut) (s : State) : State :=
  s.issue g u insn false noPort fun s =>
    match f (s.cell g) with
    | none => .trap xIllegal false false 0 0
    | some o => .ok (s.updCell g fun c => c.vecLaunch o s.clk.cc) 1 none 0

/-- Uses of a vector instruction that reads scalar register `r` when `use` holds: fN for a float VT, sN for an integer one
(R132). -/
def vecUses (v : Vec) (use : Bool) (r : BitVec 5) : Uses :=
  if !use then Uses.none'
  else if v.type.isFloat then { Uses.none' with w := [r] } else { Uses.none' with s := [r] }

/-- R132: the low `w` bits of scalar register `r` of the file that VT names. -/
def Cell.vecScalar (c : Cell) (r : BitVec 5) : Nat :=
  (if c.vec.type.isFloat then (c.pil.readF r).toNat else (c.pil.readS r).toNat) % 2 ^ c.vec.type.width

/-- R132: element `i` of the second operand of formats VR and VF. -/
def Cell.vecB (c : Cell) (r : BitVec 5) (sc : BitVec 1) (i : Nat) : Nat :=
  if sc = 1 then c.vecScalar r else elemAt (c.vec.reg r) c.vec.type.width i

/-- R133: which types a function has. -/
inductive VTypes where
  | int
  | float
  | both
deriving DecidableEq, Repr

/-- R133: whether a function has a type. -/
def VTypes.ok (k : VTypes) (t : Elem) : Bool := match k with | .int => !t.isFloat | .float => t.isFloat | .both => true

/-- R148: latency of float vector arithmetic. -/
def vfLat (t : Elem) : Nat := if t = .fp64 then 6 else if t = .fp32 then 5 else 4

/-- Format VR (R133): an elementwise function into vd. `one` says that vb and SC must be 0. Under SR a float result of 16 bits takes a draw for
each active element, whatever the function (R59; log 11). -/
def vrShape (fn : Nat) (k : VTypes) (one : Bool) (lat : Elem → Nat) (op : Elem → Rnd → Nat → Nat → FRes) (g : CellId)
    (f : VrFmt) (s : State) : State :=
  vecIssue g (vecUses (s.cell g).vec (f.sc == 1) f.vb) (encVr fn f) (fun c =>
    let t := c.vec.type
    if !k.ok t || (one && (f.vb != 0 || f.sc != 0)) then none
    else
      let a := c.vec.reg f.va
      let l := runLanes c.fp t.takesSr (c.vec.active f.mp) fun i r =>
        op t r (elemAt a t.width i) (c.vecB f.vb f.sc i)
      some { writes := [laneWrite f.vd t.width l.out], lat := lat t, flags := l.flags, srv := l.srv, ew := t.width,
             scalar := none }) s

/-- Format VR (R133): a compare into predicate md; bit 25 must be 0. -/
def vcmpShape (fn : Nat) (k : VTypes) (r : Rel) (g : CellId) (f : VrFmt) (s : State) : State :=
  vecIssue g (vecUses (s.cell g).vec (f.sc == 1) f.vb) (encVr fn f) (fun c =>
    let t := c.vec.type
    if !k.ok t || 16 ≤ f.vd.toNat then none
    else
      let a := c.vec.reg f.va
      let x := (c.vec.active f.mp).map fun i => (i, elemCmp t r (elemAt a t.width i) (c.vecB f.vb f.sc i))
      some { writes := [predWrite (f.vd.setWidth 4) (x.map fun e => (e.1, e.2.1))], lat := 2,
             flags := orFlags (x.map fun e => e.2.2), srv := c.fp.srv, ew := 1, scalar := none }) s

/-- Format VF (R132): vd := ±(va × vb) ± vd, rounded once; float VT only. -/
def vfShape (op : Nat) (np nc : Bool) (g : CellId) (f : VfFmt) (s : State) : State :=
  vecIssue g (vecUses (s.cell g).vec (f.sc == 1) f.vb) (encVf op f) (fun c =>
    let t := c.vec.type
    if !t.isFloat || f.low != 0 then none
    else
      let a := c.vec.reg f.va
      let d := c.vec.reg f.vd
      let l := runLanes c.fp t.takesSr (c.vec.active f.mp) fun i r =>
        let x := t.decodeF (elemAt a t.width i)
        let z := t.decodeF (elemAt d t.width i)
        t.ffma r (if np then x.neg else x) (t.decodeF (c.vecB f.vb f.sc i)) (if nc then z.neg else z)
      some { writes := [laneWrite f.vd t.width l.out], lat := vfLat t, flags := l.flags, srv := l.srv, ew := t.width,
             scalar := none }) s

/-- Format VS: a function into elements of vd, of the cell's choosing. -/
def vsShape (fn : Nat) (u : Vec → Uses) (g : CellId) (f : VsFmt) (body : Cell → Option VOut) (s : State) : State :=
  vecIssue g (u (s.cell g).vec) (encVs fn f) body s

/-- Elements written by a function that raises no flag and takes no draw. -/
def Cell.plainOut (c : Cell) (r : BitVec 5) (w lat : Nat) (l : List (Nat × Nat)) : VOut :=
  { writes := [laneWrite r w l], lat := lat, flags := 0, srv := c.fp.srv, ew := w, scalar := none }

/-- A scalar result (R148). -/
def Cell.scalarOut (c : Cell) (wide : Bool) (r : BitVec 5) (v : Nat) : VOut :=
  { writes := [], lat := 3, flags := 0, srv := c.fp.srv, ew := 64, scalar := some (wide, r, BitVec.ofNat 128 v) }

/-- R134: a predicate function: fields below 16, mp m0; bits below VL change. -/
def mShape (fn : Nat) (op : Bool → Bool → Bool) (g : CellId) (f : VsFmt) (s : State) : State :=
  vsShape fn (fun _ => Uses.none') g f (fun c =>
    if f.mp != 0 || 16 ≤ f.d.toNat || 16 ≤ f.a.toNat || 16 ≤ f.b.toNat then none
    else
      let a := c.vec.mreg (f.a.setWidth 4)
      let b := c.vec.mreg (f.b.setWidth 4)
      some { writes := [predWrite (f.d.setWidth 4) ((List.range c.vec.vl).map fun i => (i, op (bit a i) (bit b i)))],
             lat := 1, flags := 0, srv := c.fp.srv, ew := 1, scalar := none }) s

/-! Reductions (R153). -/

/-- R153: the accumulation format of VREDSUM. -/
def redAcc (t : Elem) : Elem := if t = .fp64 then .fp64 else if t.isFloat then .fp32 else .int32

/-- R153: the sum of active elements. The accumulations are a dot product's (R64). -/
def Cell.redSum (c : Cell) (a : Nat) (act : List Nat) : FRes :=
  let t := c.vec.type
  let acc := redAcc t
  let rnd := Rnd.plain c.fp.vrm
  let vals : List (Nat × FRes) := act.map fun i =>
    let x := elemAt a t.width i
    (i, if t.isFloat then ⟨(acc.roundVal .rne (t.decodeF x)).bits, snanIV [t.decodeF x]⟩
        else ⟨acc.encodeI (t.decodeI x), 0⟩)
  let add (x y : FRes) : FRes :=
    if t.isFloat then (acc.fadd rnd true (acc.decodeF x.bits) (acc.decodeF y.bits)).orFlags (x.flags ||| y.flags)
    else ⟨(x.bits + y.bits) % 2 ^ 32, 0⟩
  (pairTree add (fun i => (vals.find? fun e => e.1 == i).map Prod.snd) (Nat.log2 c.vec.max) 0).getD ⟨0, 0⟩

/-- R153: the largest or smallest active element; the extreme of the other side when there is none. -/
def Cell.redExt (c : Cell) (larger : Bool) (a : Nat) (act : List Nat) : FRes :=
  let t := c.vec.type
  match act with
  | [] => ⟨if t.isFloat then t.signed larger t.expOnes else t.encodeI (if larger then t.intMin else t.intMax), 0⟩
  | i :: rest =>
    let x0 := elemAt a t.width i
    let v0 := t.decodeF x0
    let init : FRes := if t.isFloat && v0.isNan then ⟨t.nan, snanIV [v0]⟩ else ⟨x0, 0⟩
    rest.foldl (fun r i => (elemMinMax t larger r.bits (elemAt a t.width i)).orFlags r.flags) init

/-- A reduction into element sb of vd. Under SR a float result of 16 bits, which VREDMAX and VREDMIN have, takes a draw for each active element
(R59; log 11). -/
def redShape (fn : Nat) (sum : Bool) (lat : Elem → Nat) (red : Cell → Nat → List Nat → FRes) (g : CellId) (f : VsFmt)
    (s : State) : State :=
  vsShape fn (fun _ => { Uses.none' with s := [f.b] }) g f (fun c =>
    let t := c.vec.type
    let acc := if sum then redAcc t else t
    let k := (c.pil.readS f.b).toNat
    if 8192 / acc.width ≤ k then none
    else
      let act := c.vec.active f.mp
      let r := red c (c.vec.reg f.a) act
      let drawn := runLanes c.fp acc.takesSr act fun _ _ => ⟨0, 0⟩
      let l := if c.vec.vl = 0 then [] else [(k, r.bits)]
      some { writes := [laneWrite f.d acc.width l], lat := lat t, flags := if c.vec.vl = 0 then 0 else r.flags,
             srv := drawn.srv, ew := acc.width, scalar := none }) s

end Sys2Proof.Machine
end

