-- ==== Sys2Proof/Machine/VecMem.lean ====
section
/-! DEFINITION. Vector memory access (R143 to R146), the feed queue (R140, R141), VSYNC (R150), VECTOR_WRITEBACK (R147, R152) and
VEC_WAIT_TIMEOUT for a VFEED. -/

namespace Sys2Proof.Machine

/-! VLD and VST. -/

/-- R144: the address of active element `i`. -/
def Cell.vecAddr (c : Cell) (f : VmFmt) (i : Nat) : Nat :=
  let base := c.pil.readS f.sa
  let n := 2 ^ f.ew.toNat
  if f.mode = 0 then (base + w64 (i * n)).toNat
  else if f.mode = 1 then (base + w64 i * c.pil.readS f.sb).toNat
  else (base + (BitVec.ofNat 32 (elemAt (c.vec.reg f.sb) 32 i)).signExtend 64).toNat

/-- R143: the own store of an address a vector access reaches: local store and the own slice. -/
def State.vecPlace (s : State) (g : CellId) (a : Nat) : Option (OwnStore × Nat) :=
  match (place s.hbmBytes g a).own g with
  | some (.window, _) => none
  | x => x

/-- R143, R231: the fault of the lowest-numbered active element that has one, PRIV before ACCESS (R224). -/
def State.vecFault (s : State) (g : CellId) (l : List (Nat × Nat)) (n : Nat) : Option (Nat × Nat) :=
  let region := match l with | e :: _ => (s.vecPlace g e.2).map Prod.fst | [] => none
  let user := !(s.cell g).exc.pl
  let priv (a : Nat) : Bool :=
    match s.vecPlace g a with
    | some (.localStore, o) => user && 0x3F000 < o + n
    | _ => false
  let bad (a : Nat) : Bool := region.isNone || (s.vecPlace g a).map Prod.fst != region || a % n != 0
  match l.find? fun e => priv e.2 with
  | some e => some (xPriv, e.2)
  | none => (l.find? fun e => bad e.2).map fun e => (xAccess, e.2)

/-- R135, R143, R144: a form or vector length that is illegal. -/
def vmIllegal (v : Vec) (f : VmFmt) : Bool :=
  f.mode = 3 || f.low != 0 || (f.mode = 0 && f.sb != 0) || 1024 / 2 ^ f.ew.toNat < v.vl || (f.mode = 2 && 256 < v.vl)

/-- R145: port occupancy, from VL and MODE alone. -/
def vmOcc (v : Vec) (f : VmFmt) : Nat := if f.mode = 0 then 1 else (max v.vl 1 + 15) / 16

/-- R145: load latency. -/
def vldLat (f : VmFmt) (st : OwnStore) (occ : Nat) : Nat :=
  let base := if st = .slice then 9 else 5
  if f.mode = 0 then base else if f.mode = 1 then base - 1 + occ else base + occ

/-- R145: cc from P0 to a store's visibility cc. -/
def vstVis (f : VmFmt) (st : OwnStore) (occ : Nat) : Nat :=
  let base := if st = .slice then 5 else 2
  if f.mode = 0 then base else if f.mode = 1 then base - 1 + occ else base + occ

/-- R145: read cc of active element number `k` of a load. -/
def vldReadCc (f : VmFmt) (p0 k : Nat) : Nat := if f.mode = 0 then p0 + 1 else p0 + 1 + k / 16

/-- R145: the reads of a load, one for each cc that reads active elements. -/
def State.vecLoadReads (s : State) (g : CellId) (f : VmFmt) (l : List (Nat × Nat)) (p0 occ : Nat) : List VecRead :=
  (List.range occ).filterMap fun j =>
    let es := (l.filter fun e => vldReadCc f p0 e.1 == p0 + 1 + j).filterMap fun e => (s.vecPlace g e.2).map fun p => (e.1, p)
    match es with
    | [] => none
    | e :: _ => some { cc := p0 + 1 + j, store := e.2.1, elems := es.map fun e => (e.1, e.2.2) }

/-- R145, R149: a vector load starts: each group of its active elements is read in its cc. -/
def State.vecLoad (s : State) (g : CellId) (f : VmFmt) (l : List (Nat × Nat)) (p0 occ : Nat) : State :=
  let n := 2 ^ f.ew.toNat
  let st := match l with | e :: _ => (s.vecPlace g e.2).map Prod.fst | [] => none
  let due := p0 + vldLat f (st.getD .localStore) occ - 1
  let fl : VecFlight :=
    { writes := [laneWrite f.vt (8 * n) (l.map fun e => (e.1, 0))], flags := 0, due := due, ew := 8 * n, pc := (s.cell g).pil.pc,
      reads := s.vecLoadReads g f l p0 occ }
  s.updCell g fun c => ({ c with vec := { c.vec with flight := c.vec.flight ++ [fl] } } : Cell).engine 1 (due + 1) 0

/-- R144: the bytes that a vector store leaves at each offset, with the element they are of; `l` gives offset, element and bytes in ascending
order of the elements, and of two at one byte the later is kept. -/
def storeImage (l : List (Nat × Nat × List Byte)) : Tbl (Nat × Byte) :=
  l.foldl (fun m e => e.2.2.zipIdx.foldl (fun m b => m.set (e.1 + b.2) (e.2.1, b.1)) m) []

/-- R440: neighbouring bytes of one code unit together: offset, elements, bytes. -/
def unitRuns (m : Tbl (Nat × Byte)) : List (Nat × List Nat × List Byte) :=
  m.foldr (fun b acc =>
    match acc with
    | (o, es, bs) :: rest =>
      if b.1 + 1 = o && o % sramUnit != 0 then (b.1, if es.contains b.2.1 then es else b.2.1 :: es, b.2.2 :: bs) :: rest
      else (b.1, [b.2.1], [b.2.2]) :: acc
    | [] => [(b.1, [b.2.1], [b.2.2])]) []

/-- R144, R145: a vector store starts: its bytes wait to become visible, those of one code unit together. -/
def State.vecStore (s : State) (g : CellId) (f : VmFmt) (l : List (Nat × Nat)) (p0 occ : Nat) : State :=
  let n := 2 ^ f.ew.toNat
  let v := (s.cell g).vec.reg f.vt
  let at' := l.filterMap fun e => (s.vecPlace g e.2).map fun p => (p.1, p.2, e.1, leBytes (elemAt v (8 * n) e.1) n)
  let st := (at'.head?.map Prod.fst).getD .localStore
  let ps := (unitRuns (storeImage (at'.map Prod.snd))).map fun r =>
    ({ by' := .vector, store := st, off := r.1, bytes := r.2.2, vis := p0 + vstVis f st occ, elems := r.2.1 } : PendStore)
  s.updCell g fun c => ({ c with stores := c.stores ++ ps } : Cell).engine 1 (p0 + occ) 0

/-- A vector memory instruction. -/
def vmShape (store : Bool) (g : CellId) (f : VmFmt) (s : State) : State :=
  let u : Uses := { Uses.none' with s := if f.mode = 1 then [f.sa, f.sb] else [f.sa], mem := true }
  s.issue g u (encVm (b2n store) f) false noPort fun s =>
    let c := s.cell g
    if vmIllegal c.vec f then .trap xIllegal false false 0 0
    else
      let n := 2 ^ f.ew.toNat
      let l := (c.vec.active f.mp).map fun i => (i, c.vecAddr f i)
      match s.vecFault g l n with
      | some (code, a) => .trap code store false (w64 a) 0
      | none =>
        let p0 := max s.clk.cc c.vec.port
        let occ := vmOcc c.vec f
        let s1 := if store then s.vecStore g f l p0 occ else s.vecLoad g f l p0 occ
        .ok (s1.updCell g fun c => { c with vec := { c.vec with port := p0 + occ } }) 1 none 0

/-- R145: vector load. -/
def execVld (g : CellId) (f : VmFmt) (s : State) : Out := .next (vmShape false g f s)

/-- R145: vector store. -/
def execVst (g : CellId) (f : VmFmt) (s : State) : Out := .next (vmShape true g f s)

/-! Feed queue. -/

/-- R140, R142: a slice is pushed, unless a skipped pass still has slices to remove. -/
def Vec.push (v : Vec) (bits : BitVec 8192) (now : Nat) : Vec :=
  if 0 < v.feedSkip then { v with feedSkip := v.feedSkip - 1, feedStall := none }
  else { v with feed := v.feed ++ [{ bits := bits, from' := now + 3 }], feedStall := none }

/-- R140, R141: push one slice; a full queue stalls. -/
def execVfeed (g : CellId) (f : VsFmt) (s : State) : Out :=
  let insn := encVs 0x20 f
  .next (s.issue g Uses.none' insn (f.d != 0 || f.b != 0 || f.mp != 0) noPort fun s =>
    if 32 ≤ (s.cell g).vec.feed.length then
      .done ((s.updCell g fun c =>
        let t := match c.vec.feedStall with | some x => x | none => (s.clk.cc, insn)
        ({ c with vec := { c.vec with feedStall := some t } } : Cell).engine 1 0 0x0E).pilotWhy g 0x0E)
    else .ok (s.updCell g fun c => { c.engine 1 0 0 with vec := c.vec.push (c.vec.v.get 0 f.a.toNat) s.clk.cc }) 1 none 0)

/-- R150: wait for all issued vector work. -/
def execVsync (g : CellId) (f : VsFmt) (s : State) : Out :=
  .next (s.issueFor 0x0D g Uses.none' (encVs 0x28 f) (f.d != 0 || f.a != 0 || f.b != 0 || f.mp != 0)
    (fun s => (s.cell g).vecDone) fun s => .ok s 1 none 0)

/-! Landing. -/

/-- R152: the wrong bits of a failing lane in the first destination of a flight. -/
def VecFlight.strike (f : VecFlight) (u : LaneUpset) : VecFlight :=
  match f.writes with
  | [] => f
  | w :: rest =>
    let m := BitVec.ofNat 8192 (lanesMask f.ew [u.element]) &&& w.mask
    let v := BitVec.ofNat 8192 (lanesVal f.ew [(u.element, u.bits.toNat)])
    { f with writes := { w with val := (w.val &&& ~~~m) ||| (v &&& m) } :: rest }

/-- R445: the mechanism of a failing check. An error that the vector register file's code cannot correct is an SRAM_ECC record; one that it
corrects shows nowhere (log 76). -/
def laneMech : LaneCheck → Byte
  | .residue => mechVecResidue
  | .parity => mechVecParity
  | .ecc => mechSram

/-- R152, R445: the record of a failing lane, and the machine check that follows at I + L + 1. -/
def State.laneRecord (s : State) (g : CellId) (u : LaneUpset) (due : Nat) : State :=
  let w : PilotWb := { wide := false, reg := 0, val := 0, due := due + 1, bad := true, load := false }
  (s.raise g (laneMech u.check) actCommand (if u.check = .ecc then 1 else 3) 1 u.element 0).updCell g fun c =>
    { c with pil := { c.pil with wbs := c.pil.wbs ++ [w] } }

/-- Change the first entry of which `p` holds. -/
def updFirst {α : Type} (p : α → Bool) (f : α → α) : List α → List α
  | [] => []
  | x :: rest => if p x then f x :: rest else x :: updFirst p f rest

/-- A result of the vector unit that goes to a scalar register and lands at the end of cc `t`. -/
def PilotWb.vecAt (w : PilotWb) (t : Nat) : Bool := w.vec && !w.bad && w.due == t

/-- The cc at whose end work of the vector unit leaves it: destinations (R147), scalar results (R148), and stores, as they become visible
(R145). -/
def Cell.vecDues (c : Cell) : List Nat :=
  c.vec.flight.map VecFlight.due ++ (c.pil.wbs.filter fun w => w.vec && !w.bad).map PilotWb.due
    ++ (c.stores.filter fun p => p.by' == .vector).map PendStore.vis

/-- R445: a failing lane strikes the work that leaves at the end of cc `t`: a register destination before a scalar result before stored
bytes. -/
def Cell.strike (c : Cell) (u : LaneUpset) (t : Nat) : Cell :=
  if c.vec.flight.any fun f => f.due == t then
    { c with vec := { c.vec with flight := updFirst (fun f => f.due == t) (fun f => f.strike u) c.vec.flight } }
  else if c.pil.wbs.any fun w => w.vecAt t then
    { c with pil := { c.pil with wbs := updFirst (fun w => w.vecAt t) (fun w => { w with val := u.bits.setWidth 128 }) c.pil.wbs } }
  else
    { c with stores := updFirst (fun p => p.by' == .vector && p.vis == t && p.elems.contains u.element)
                         (fun p => { p with bytes := leBytes u.bits.toNat p.bytes.length }) c.stores }

/-- R147, R152, R445: the work of the vector unit that is due first leaves it, with a lane's failure if one strikes it. With none nothing
happens. -/
def execVectorWriteback (g : CellId) (upset : Option LaneUpset) (s : State) : Out :=
  if !s.live g then .next s
  else
    match sortBy id (s.cell g).vecDues with
    | [] => .next s
    | t :: _ =>
      match upset with
      | none => .next (s.until (t + 1))
      | some u =>
        .next (s.untilThen t fun s => ((s.updCell g fun c => c.strike u t).laneRecord g u t).until (t + 1))

end Sys2Proof.Machine
end

