-- ==== Sys2Proof/Machine/VecOrbit.lean ====
section
/-! DEFINITION. Orbit reductions of the vector unit (R154 to R156): VORB, the arrival of a vector orbit packet, and the wait
limit of VFEED and VORB (R141, R155). -/

namespace Sys2Proof.Machine

/-- R92, R135: whether a role does not agree with CELL_ORBIT. -/
def OrbitReg.refuses (o : OrbitReg) (role : BitVec 2) : Bool :=
  ((role == roleFirst || role == roleMiddle) && !o.nextV) || ((role == roleMiddle || role == roleLast) && !o.prevV)

/-- Element width of a VORB's totals. -/
def Vorb.width (v : Vorb) : Nat := if v.int then 32 else 64

/-- R154: r + va elementwise, by the mode that stood at VORB's issue, with the flags it raises. That an inexact sum sets NX, and a tiny one UF,
where it does not overflow, is the model's choice (log 53). -/
def Vorb.fold (v : Vorb) (r : List Word64) : List Word64 × FFlags :=
  let l := (List.range v.n).map fun i =>
    let x := (r.getD i 0).toNat
    let y := elemAt v.va.toNat v.width i
    if v.int then (⟨(x + y) % 2 ^ 32, 0⟩ : FRes)
    else Elem.fp64.fadd (Rnd.plain v.vrm) true (Elem.fp64.decodeF x) (Elem.fp64.decodeF y)
  (l.map fun e => w64 e.bits, orFlags (l.map FRes.flags))

/-- R155: the packet of a VORB's totals. -/
def Vorb.packet (v : Vorb) (ws : List Word64) (ret : Bool) (hop : Nat) : OrbitPkt :=
  { rows := 0, rg := if ret then 1 else 0, lastRg := true, pidx := 0, tag := v.tag, kind := if v.int then 2 else 1,
    n := BitVec.ofNat 7 v.n, hop := BitVec.ofNat 8 hop, dstg := 0, srcg := 0, srcMod := 0, words := ws }

/-- R155: whether a waiting VORB accepts a packet. -/
def Vorb.accepts (v : Vorb) (o : OrbitReg) (k : OrbitPkt) : Bool :=
  k.tag == v.tag && k.rg == (if v.onReturn then 1 else 0) && k.n.toNat == v.n
    && k.srcg == (if v.onReturn then o.next else o.prev) && k.kind == (if v.int then 2 else 1)

/-- R154, R69: totals to elements 0 to N − 1 of vd, if it is written, and the flags of the addition, at the end of cc `now`. -/
def Cell.vorbLand (c : Cell) (v : Vorb) (write : Bool) (ws : List Word64) (fl : FFlags) (now : Nat) : Cell :=
  let l := (List.range v.n).map fun i => (i, (ws.getD i 0).toNat)
  let f : VecFlight :=
    { writes := if write then [laneWrite v.vd v.width l] else [], flags := fl, due := now, ew := v.width, pc := c.pil.pc }
  { c with vec := { c.vec with flight := c.vec.flight ++ [f] } }

/-- R154: the VORB ends; the next word issues in the following cc. -/
def Cell.vorbEnd (c : Cell) (now : Nat) : Cell :=
  let c1 := (c.engine 0 (now + 1) 0).engine 1 0 0
  { c1 with vec := { c.vec with vorb := none }, pil := { c.pil with pc := c.pil.pc + 4, next := now + 1, nextWhy := 0x0F } }

/-- R154: what an accepted packet makes a waiting VORB do. -/
def State.vorbStep (s : State) (g : CellId) (v : Vorb) (k : OrbitPkt) : State :=
  let now := s.clk.cc
  if v.onReturn then
    let s1 := s.updCell g fun c => (c.vorbLand v true k.words 0 now).vorbEnd now
    if v.role = roleMiddle then s1.sendOrbit g false (v.packet k.words true (k.hop.toNat + 1)) else s1
  else
    let t := v.fold k.words
    let s1 := s.updCell g fun c => c.vorbLand v (v.role == roleLast) t.1 t.2 now
    if v.role = roleMiddle then
      let s2 := s1.sendOrbit g true (v.packet t.1 false (k.hop.toNat + 1))
      s2.updCell g fun c =>
        if v.ret then { c with vec := { c.vec with vorb := some { v with onReturn := true } } } else c.vorbEnd now
    else
      let s2 := s1.updCell g fun c => c.vorbEnd now
      if v.ret then s2.sendOrbit g false (v.packet t.1 true (k.hop.toNat + 1)) else s2

/-- R141, R155: a VFEED or VORB ends with a vector-wait fault; `timeout` and `mismatch` are the flags of VEC_ORB that it sets. -/
def State.vwait (s : State) (g : CellId) (insn : Word32) (timeout mismatch : Bool) : State :=
  let s1 := s.updCell g fun c =>
    { c with vec := { c.vec with vorb := none, feedStall := none, timeout := c.vec.timeout || timeout,
                                 mismatch := c.vec.mismatch || mismatch } }
  s1.takeTrap g { code := xVwait, wr := false, half := false, info := 0, insn := insn, addr := 0, rpc := (s.cell g).pil.pc }

/-- R155: a waiting VORB meets the packets of its inbox, oldest first; at most the four that it holds. -/
def State.vorbInbox (s : State) (g : CellId) : Nat → State
  | 0 => s
  | n + 1 =>
    let c := s.cell g
    match c.vec.vorb, c.vec.inbox with
    | some v, k :: rest =>
      let s1 := s.updCell g fun c => { c with vec := { c.vec with inbox := rest } }
      if v.accepts c.arr.orbit k then (s1.vorbStep g v k).vorbInbox g n
      else s1.vwait g v.insn false true
    | _, _ => s

/-- R154: VORB. A FIRST without return sends and ends; every other role stalls until its part ends. -/
def execVorb (g : CellId) (f : VsFmt) (s : State) : Out :=
  let insn := encVs 0x21 f
  .next (s.issue g { Uses.none' with s := [f.b] } insn (f.mp != 0) noPort fun s =>
    let c := s.cell g
    let ctl := (c.pil.readS f.b).toNat
    let role := BitVec.ofNat 2 (bits ctl 22 2)
    if !(c.vec.vt == 0 || c.vec.vt == 0xA) || role == 0 || bits ctl 25 39 != 0 || c.arr.orbit.refuses role then
      .trap xIllegal false false 0 0
    else
      let v : Vorb :=
        { role := role, ret := bit ctl 24, tag := BitVec.ofNat 16 (bits ctl 0 16), n := bits ctl 16 6 + 1, onReturn := false,
          vd := f.d, va := c.vec.v.get 0 f.a.toNat, int := c.vec.vt == 0xA, vrm := c.fp.vrm, since := s.clk.cc, insn := insn }
      let words := (List.range v.n).map fun i => w64 (elemAt v.va.toNat v.width i)
      let s1 := if role = roleFirst then s.sendOrbit g true (v.packet words false 0) else s
      if role = roleFirst && !v.ret then .ok s1 1 none 0x0F
      else
        let v1 := { v with onReturn := role == roleFirst }
        let s2 := s1.updCell g fun c =>
          (({ c with vec := { c.vec with vorb := some v1 } } : Cell).engine 0 (s.clk.cc + 1) 0x0F).engine 1 0 0x0F
        .done (s2.vorbInbox g 4))

/-- R155: the oldest vector orbit packet on its way to the cell arrives: into the inbox, or discarded when four are held. A
waiting VORB meets it at once. A cell in reset discards it. With none on its way nothing happens. -/
def execVectorOrbitPacket (g : CellId) (s : State) : Out :=
  if !s.clk.runs then .next s
  else
    match takeOrbit g (fun k => k.rows == 0) s.orbit with
    | none => .next s
    | some (k, rest) =>
      let s1 := { s with orbit := rest }
      if !s.live g then .next s1
      else if 4 ≤ (s.cell g).vec.inbox.length then .next (s1.updCell g fun c => { c with vec := { c.vec with ovf := true } })
      else
        let s2 := s1.updCell g fun c => { c with vec := { c.vec with inbox := c.vec.inbox ++ [k] } }
        .next (s2.vorbInbox g 4)

/-- R141, R155: the stall of a VFEED or VORB reaches VEC_WAIT_LIMIT: TIMEOUT is set and the pilot takes a vector-wait fault. With
neither stalled, or with a place free in the feed queue by then, no fault is taken. -/
def execVecWaitTimeout (g : CellId) (s : State) : Out :=
  let c := s.cell g
  let wait : Option (Nat × Word32) := match c.vec.vorb with | some v => some (v.since, v.insn) | none => c.vec.feedStall
  match wait with
  | none => .next s
  | some (t, insn) =>
    if s.live g then
      .next (s.untilThen (t + c.vec.waitLimit.toNat) fun s =>
        if c.vec.vorb.isSome || 32 ≤ (s.cell g).vec.feed.length then s.vwait g insn true false else s)
    else .next s

end Sys2Proof.Machine
end

