-- ==== Sys2Proof/Machine/PassDesc.lean ====
section
/-! DEFINITION. The pass descriptor (R78, R90 to R92): its fields, its checks, and APASS, which captures it. -/

namespace Sys2Proof.Machine

/-- R79: whether `rows` rows of `len` bytes at `off`, `str` apart, lie in the slice; `al` asks for the 64-byte alignments. -/
def regionOk (al : Bool) (off str rows len : Nat) : Bool :=
  (!al || (off % 64 == 0 && str % 64 == 0)) && (rows == 0 || len == 0 || off + (rows - 1) * str + len ≤ 0xC000000)

/-- R79: whether the regions that the pass uses keep its conditions. -/
def Desc.regionsOk (d : Desc) : Bool :=
  let blocks := ceilDiv d.k 32
  regionOk true d.bOff d.bStr d.n (packedBytes d.bfmt d.k)
    && (d.src || regionOk true d.aOff d.aStr d.m (packedBytes d.afmt d.k))
    && (!d.sca || d.src || regionOk false d.saOff d.saStr d.m blocks)
    && (!d.scb || regionOk false d.sbOff d.sbStr d.n blocks)
    && (d.cmode == 0 || regionOk true d.cOff d.cStr d.m (d.n * d.cSize))
    && (!(d.orb == 0 || d.orb == roleLast) || regionOk true d.oOff d.oStr d.m (packedBytes d.ofmt d.n))

/-- R82: whether a scale bit is allowed on a format. -/
def scaleOk (c : Nat) : Bool := (5 ≤ c && c ≤ 9) || c == 0xB

/-- R92: the conditions a descriptor must keep; `last` is the PIDX of the last pass issued in the kernel. -/
def Desc.ok (d : Desc) (o : OrbitReg) (last : Nat) : Bool :=
  opCode d.afmt && opCode d.bfmt && pairs d.afmt d.bfmt
    && (!d.sca || scaleOk d.afmt) && (!d.scb || scaleOk d.bfmt) && (d.afmt != 0xB || d.sca == d.scb)
    && (if d.int then d.ofmt == 0xA && (d.cmode == 0 || d.cmode == 3) else d.ofmt ≤ 9 && d.cmode != 3)
    && (!d.fp32 || d.fpx != 0) && d.rnd != 3 && (d.int || d.ch % d.kg == 0)
    && d.m ≤ 256 && d.n ≤ 64 && d.len ≤ 8192 && d.len == d.length
    && (d.cmode == 0 || !(d.orb == roleMiddle || d.orb == roleLast)) && d.regionsOk && !o.refuses d.orb
    && (!(d.orb == roleMiddle || d.orb == roleLast) || d.m * d.n * d.nchunk ≤ 16384) && last ≤ d.pidx

/-- Eight doublewords from 64 bytes (R6). -/
def wordsOf (n : Nat) (bs : List Byte) : List Word64 := (List.range n).map fun i => w64 (leNat ((bs.drop (8 * i)).take 8))

/-- R112: a pass below the restart index completes at once and counts; R142: with SRC = 1 it takes its slices from the feed
queue as they arrive. -/
def Cell.skipPass (c : Cell) (d : Desc) : Cell :=
  let take := if d.src then ceilDiv d.m 4 * d.ksteps else 0
  let have' := min take c.vec.feed.length
  { c with arr := { c.arr with done := c.arr.done + 1, lastIssued := BitVec.ofNat 16 d.pidx }
           vec := { c.vec with feed := c.vec.feed.drop have', feedSkip := c.vec.feedSkip + (take - have') } }

/-- R92: queue a pass. -/
def Cell.queuePass (c : Cell) (d : Desc) (dw : List Word64) (now : Nat) : Cell :=
  let p : Pass :=
    { dw := dw, issue := now, stage := .queued, start := 0, step := 0, due := 0, groups := [], flags := 0, stall := 0,
      pc := c.pil.pc, ready := none, half := none, upset := none, fail := none, staged := 0, cend := 0, crow := 0, endFlags := 0 }
  Cell.showHold { c with arr := { c.arr with passes := c.arr.passes ++ [p], lastIssued := BitVec.ofNat 16 d.pidx } }

/-- R188, R231: the fault of an engine command at `a`, `n` bytes long. -/
def engFault (user : Bool) (a n al : Nat) : Option Nat :=
  if user && a < 0x40000 && 0x3F000 < a + n then some xPriv
  else if a % al ≠ 0 || 0x40000 < a + n then some xAccess
  else none

/-- R92, R93, R112, R188, R440: APASS. -/
def execApass (g : CellId) (f : KFmt) (s : State) : Out :=
  .next (s.issue g { Uses.none' with s := [f.ra], mem := true } (encK engOp 0x01 f) (kIllegal f false true false) noPort fun s =>
    let c := s.cell g
    let a := (c.pil.readS f.ra).toNat
    if 3 ≤ c.arr.passes.length then .stall 0x07
    else
    match engFault (!c.exc.pl) a 64 64 with
    | some code => .trap code false false (w64 a) 0
    | none =>
      if c.ls.anyBad sramUnit a 64 then
        .ok ((s.raise g mechSram actCommand 1 0 0 a).updCell g fun c => { c with exc := { c.exc with mchk := true } }) 1 none 0
      else
        let dw := wordsOf 8 (s.readOwn g .localStore a 64 s.clk.cc none)
        let d := Desc.ofWords dw
        if descReserved dw || !d.ok c.arr.orbit c.arr.lastIssued.toNat then .trap xAdesc false false (w64 a) 0
        else
          let s1 := s.correctAt g (.ls a) 64
          .ok (s1.updCell g fun c => if d.pidx < c.arr.restart.toNat then c.skipPass d else c.queuePass d dw s.clk.cc) 1 none 0)

end Sys2Proof.Machine
end

