-- ==== Sys2Proof/Machine/HostPacket.lean ====
section
/-! DEFINITION. Maelly packets (R319, R327 to R330, R333), completions (R340, R345), and the writes the hub posts into host
memory (R314, R317, R324, R333). -/

namespace Sys2Proof.Machine

/-- The doublewords of bytes (R6). -/
def bytesDw (n : Nat) (bs : List Byte) : List Word64 := (List.range n).map fun i => w64 (leNat ((bs.drop (8 * i)).take 8))

/-- R330: one bit of the reflected CRC-32C. -/
def crcBit (c : Nat) : Nat := if c % 2 = 1 then c / 2 ^^^ 0x82F63B78 else c / 2

/-- R330: one byte. -/
def crcByte (c : Nat) (b : Byte) : Nat := (List.range 8).foldl (fun a _ => crcBit a) (c ^^^ b.toNat)

/-- R330: CRC-32C (Castagnoli). -/
def crc32c (bs : List Byte) : Nat := bs.foldl crcByte 0xFFFFFFFF ^^^ 0xFFFFFFFF

/-- R330: the check code of a packet: CHECK set to 0, padding excluded. -/
def packetCheck (h : List Word64) (payload : List Byte) : Nat :=
  crc32c (dwBytes ((h.take 7) ++ [w64 (bits (hdrDw h 7) 32 32 * 2 ^ 32)]) ++ payload)

/-- R366: a 32-bit field read as the full track time nearest the header's arrival. -/
def fullTime (field : Nat) (arrival : Word64) : Nat :=
  (arrival + BitVec.ofInt 64 ((BitVec.ofNat 32 field - arrival.setWidth 32 : Word32).toInt)).toNat

/-! Completions (R340, R345). -/

/-- R345. -/
def stOk : Nat := 0
/-- R345. -/
def stLate : Nat := 1
/-- R345. -/
def stPassAborted : Nat := 2
/-- R345. -/
def stCellReset : Nat := 3
/-- R345. -/
def stUnformed : Nat := 4
/-- R345. -/
def stMover : Nat := 5
/-- R345. -/
def stKernelFault : Nat := 6
/-- R345. -/
def stHwError : Nat := 7
/-- R345. -/
def stBadCheck : Nat := 0x10
/-- R345. -/
def stBadHeader : Nat := 0x11
/-- R345. -/
def stBadVersion : Nat := 0x12
/-- R345. -/
def stBadClass : Nat := 0x13
/-- R345. -/
def stBadOpcode : Nat := 0x14
/-- R345. -/
def stSequence : Nat := 0x15
/-- R345. -/
def stUnknownKernel : Nat := 0x16
/-- R345. -/
def stTooLong : Nat := 0x17
/-- R345. -/
def stNotOwner : Nat := 0x18
/-- R345. -/
def stPortUp : Nat := 0x19
/-- R345. -/
def stPortDown : Nat := 0x1A
/-- R345. -/
def stBadLength : Nat := 0x1B
/-- R345. -/
def stQueueFault : Nat := 0x1C

/-- R340: what a completion says. -/
structure Comp where
  version : Nat
  status : Nat
  cls : Nat
  queue : Nat
  gen : Nat
  trunc : Bool
  late : Bool
  kstat : Nat
  seq : Nat
  rlen : Nat
  cookie : Nat
  stamp : Nat
  detail : Nat
deriving DecidableEq, Repr

/-- R340: its 32 bytes; a 2.x completion has STAMP 0 (R319). -/
def Comp.bytes (c : Comp) : List Byte :=
  dwBytes
    [w64 (c.version + c.status * 2 ^ 8 + c.cls * 2 ^ 16 + c.queue * 2 ^ 18 + c.gen * 2 ^ 32 + b2n c.trunc * 2 ^ 40
        + b2n c.late * 2 ^ 41 + c.kstat % 2 ^ 16 * 2 ^ 48),
     w64 (c.seq + c.rlen * 2 ^ 32), w64 c.cookie,
     w64 ((if c.version < 0x30 then 0 else c.stamp % 2 ^ 40) + c.detail % 2 ^ 16 * 2 ^ 40)]

/-! Posted writes. -/

/-- R312: bytes of the maximum payload size. -/
def PciPort.maxPayload (x : PciPort) : Nat := 128 * 2 ^ x.mps.toNat

/-- R314: the writes into which a write at `addr` is split, at the maximum payload size `m` and at 4 KiB boundaries. The first number
bounds them. -/
def splitWrite (p : PortId) (m : Nat) : Nat → Nat → List Byte → List HostWrite
  | 0, _, _ => []
  | fuel + 1, addr, bs =>
    if bs.isEmpty then []
    else
      let n := min m (4096 - addr % 4096)
      { port := p, addr := addr, bytes := bs.take n } :: splitWrite p m fuel (addr + n) (bs.drop n)

/-- R314: post a write of port `p` into host memory. -/
def State.hostWrite (s : State) (p : PortId) (addr : Nat) (bs : List Byte) : State :=
  { s with disp := { s.disp with out := s.disp.out ++ splitWrite p (s.pport p).maxPayload bs.length addr bs } }

/-- R317: raise MSI-X vector `v` of port `p`: written, or pending while it is masked. -/
def State.msix (s : State) (p : PortId) (v : Nat) : State :=
  let x := s.pport p
  let c := x.msixDw (2 * v + 1)
  if bit c 32 then s.updPport p fun x => { x with pend := x.pend ||| w64 (2 ^ v) }
  else s.hostWrite p (x.msixDw (2 * v)) (leBytes (c % 2 ^ 32) 4)

/-- R324: write queue `q`'s credit word, if it has an address. -/
def State.creditWord (s : State) (q : QueueId) : State :=
  let x := s.queue q
  match x.port with
  | some p =>
    if x.cfg.craddr = 0 then s
    else s.hostWrite p x.cfg.craddr.toNat (leBytes (x.head % 2 ^ 32 + x.gen.toNat * 2 ^ 32) 8)
  | none => s

/-- R333: write an error completion to queue `q`'s error ring, if it has one. -/
def State.errorRing (s : State) (q : QueueId) (c : Comp) : State :=
  let x := s.queue q
  match x.port with
  | some p =>
    if x.cfg.erraddr = 0 then s
    else
      (s.hostWrite p (x.cfg.erraddr.toNat + 32 * (x.errcnt.toNat % 64)) c.bytes).updQueue q fun x =>
        { x with errcnt := x.errcnt + 1 }
  | none => s

/-- A completion that answers packet `h` of queue `q` as the check stage finds it. -/
def State.compOf (s : State) (q : QueueId) (h : List Word64) (status detail : Nat) : Comp :=
  let v := match (s.queue q).port with | some p => (s.pport p).agreed.toNat | none => 0
  { version := v, status := status, cls := hdrClass h, queue := hdrQueue h, gen := hdrGen h, trunc := false, late := false,
    kstat := 0, seq := hdrSeq h, rlen := 0, cookie := hdrDw h 4, stamp := s.time.track.toNat, detail := detail }

/-- R333, R340: a completion to CADDR, with the queue's vector if IRQ is 1. -/
def State.answer (s : State) (q : QueueId) (h : List Word64) (c : Comp) : State :=
  match (s.queue q).port with
  | some p =>
    let s1 := s.hostWrite p (hdrCaddr h) c.bytes
    if hdrIrq h then s1.msix p (s.queue q).cfg.vector.toNat else s1
  | none => s

/-! Slots (R334, R336). -/

/-- R336: the slots of an entry's area, lowest first; an empty grid has no leader and none. -/
def State.slots (s : State) (e : List Word64) : List Slot :=
  if entryGroup e = 0x7F then []
  else
    (List.range (bits (hdrDw e 2) 28 4 + 1)).map fun k =>
      { leader := (s.group (entryGroup e)).leader, off := bits (hdrDw e 2) 0 28 + k * entrySlot e, size := entrySlot e }

/-- R336: the lowest free slot. -/
def State.freeSlot (s : State) (e : List Word64) : Option Slot :=
  (s.slots e).find? fun x => !s.disp.busySlots.any fun b => b.1 == x.leader && b.2 == x.off

/-- Take a slot. -/
def State.takeSlot (s : State) (x : Slot) : State :=
  { s with disp := { s.disp with busySlots := s.disp.busySlots ++ [(x.leader, x.off)] } }

/-- R336: free a slot. -/
def State.dropSlot (s : State) (x : Option Slot) : State :=
  match x with
  | some x => { s with disp := { s.disp with busySlots := s.disp.busySlots.filter fun b => !(b.1 == x.leader && b.2 == x.off) } }
  | none => s

/-- The slot a packet holds. -/
def Pkt.slot (k : Pkt) : Option Slot := match k.mode with | .toSlot x => some x | _ => none

/-- R252, R336, R440: a payload write into a slot; a cell in reset takes none (R457). -/
def State.slotWrite (s : State) (x : Slot) (at' : Nat) (bs : List Byte) : State :=
  let o := x.off + at'
  if s.cellDown x.leader then s.lostHubWrite x.leader o else s.writeFourth x.leader 9 (.slice x.leader o) bs

end Sys2Proof.Machine
end

