-- ==== Sys2Proof/Machine/HostQueue.lean ====
section
/-! DEFINITION. Ingress queues (R315, R322 to R326, R331 to R336): a ring write, the taking of packets out of the ring, the slot
of a waiting RUN, and the checks of a whole packet. -/

namespace Sys2Proof.Machine

/-- R325: the next generation. -/
def nextGen (g : Byte) : Byte := if g = 255 then 1 else g + 1

/-- R322, R331, R350: a queue opens: new generation, ring position, HEAD and expected sequence 0, partial packet discarded. A
whole packet keeps its place in the check stage. -/
def Queue.openQ (x : Queue) : Queue :=
  { x with st := 1, gen := nextGen x.gen, nextSeq := 0, head := 0, pos := 0, ring := [], arrived := [],
           cur := match x.cur with | some k => if k.left = 0 && k.mode != .waitSlot then some k else none | none => none }

/-- The slot that a queue's partial packet holds. -/
def Queue.partialSlot (x : Queue) : Option Slot :=
  match x.cur with
  | some k => if k.left = 0 then none else k.slot
  | none => none

/-- R324, R348: discard a queue's partial packet and its ring bytes, and free its slot. -/
def State.dropPartial (s : State) (q : QueueId) : State :=
  let x := s.queue q
  (s.dropSlot x.partialSlot).updQueue q fun x =>
    { x with ring := [], arrived := [],
             cur := match x.cur with | some k => if k.left = 0 && k.mode != .waitSlot then some k else none | none => none }

/-- R324, R333: the queue becomes FAULT, and its error ring says so. -/
def State.queueFault (s : State) (q : QueueId) (c : Comp) : State :=
  let s1 := (s.dropPartial q).updQueue q fun x => { x with st := 2 }
  s1.errorRing q c

/-- R324: the completion of a ring written out of order or beyond its credits. -/
def State.faultComp (s : State) (q : QueueId) : Comp :=
  let x := s.queue q
  { s.compOf q [] stQueueFault 0 with cls := clsNat x.cls, queue := q.toNat, gen := x.gen.toNat }

/-- R333, R340: the completion of outcome 1 and 2, whose COOKIE and SEQ are not trusted. -/
def State.lengthComp (s : State) (q : QueueId) (h : List Word64) : Comp :=
  { s.compOf q h stBadLength 0 with cookie := 0, seq := 0 }

/-- R324, R336: how the payload of a packet that passed checks 1 and 2 goes. -/
def State.modeOf (s : State) (h : List Word64) : PktMode :=
  if hdrOpcode h = 1 then
    match s.disp.entry (hdrKernel h) with
    | none => .discard
    | some e =>
      if entryGroup e = 0x7F || entrySlot e < hdrPlen h || entrySlot e < hdrRlenMax h then .discard
      else match s.freeSlot e with | some x => .toSlot x | none => .waitSlot
  else .buffer

/-- R324: ring bytes of a packet have been freed: HEAD, and a credit word after the packet's last byte and after each further
32 KiB. -/
def State.freed (s : State) (q : QueueId) (n : Nat) (k : Pkt) : State :=
  let f := k.freed + n
  let word := k.left = 0 || 0x8000 ≤ f
  let cur := if k.left = 0 && k.mode == .stale then none else some { k with freed := if word then 0 else f }
  let s1 := s.updQueue q fun x =>
    { x with ring := x.ring.drop n, head := x.head + n, cur := cur, arrived := x.arrived.filter fun e => x.head + n < e.1 }
  if word then s1.creditWord q else s1

/-- R366: the track time at which the last byte of the header at the front of the ring arrived. -/
def Queue.headerAt (x : Queue) (now : Word64) : Word64 :=
  match x.arrived.find? fun e => x.head + 64 ≤ e.1 with
  | some e => e.2
  | none => now

/-- R331 to R333: the header at the front of the ring. What the ring holds of a packet of more than 1 MiB is discarded and freed. -/
def State.takeHeader (s : State) (q : QueueId) (h : List Word64) : State :=
  let x := s.queue q
  if hdrGen h = 0 then
    s.updQueue q fun x =>
      { x with ring := x.ring.drop 64, head := x.head + 64, arrived := x.arrived.filter fun e => x.head + 64 < e.1 }
  else
    let s0 := s.updQueue q fun x => { x with cfg := x.next.getD x.cfg, next := none }
    let long := 0x100000 < hdrPlen h
    let stale := hdrGen h != x.gen.toNat
    let s1 := if stale then
        s0.updQueue q fun x => { x with stale := BitVec.ofNat 16 (satAdd 0xFFFF x.stale.toNat 1) } else s0
    let pkt (mode : PktMode) : Pkt :=
      { hdr := h, mode := mode, got := [], left := paddedLen (hdrPlen h), at' := x.headerAt s1.time.track, freed := 0, torn := false }
    if long then (s1.freed q (x.ring.length / 64 * 64) (pkt .discard)).queueFault q (s1.lengthComp q h)
    else
      let mode := if stale then .stale else s1.modeOf h
      (match mode with | .toSlot y => s1.takeSlot y | _ => s1).freed q 64 (pkt mode)

/-- R324, R336: one unit of payload or padding. -/
def State.takeUnit (s : State) (q : QueueId) (k : Pkt) : State :=
  let data := ((s.queue q).ring.take 64).take (hdrPlen k.hdr - k.got.length)
  let s1 := match k.mode with | .toSlot y => s.slotWrite y k.got.length data | _ => s
  s1.freed q 64 { k with got := if k.mode == .stale then [] else k.got ++ data, left := k.left - 64 }

/-- R324: take the next header or unit out of a ring, if one is whole and may be taken. A frozen dispatcher takes no RUN
(R476, R478). -/
def State.ringStep (s : State) (q : QueueId) : Option State :=
  let x := s.queue q
  if x.ring.length < 64 then none
  else
    match x.cur with
    | none =>
      let h := bytesDw 8 (x.ring.take 64)
      if x.st ≠ 1 || (s.clk.frozen && hdrGen h != 0 && hdrOpcode h == 1) then none else some (s.takeHeader q h)
    | some k =>
      if k.left = 0 || k.mode == .waitSlot || (s.clk.frozen && k.slot.isSome) then none else some (s.takeUnit q k)

/-- R323, R324: take what the ring holds; every step frees 64 bytes. -/
def State.progress (s : State) (q : QueueId) : Nat → State
  | 0 => s
  | n + 1 =>
    match s.ringStep q with
    | some s' => s'.progress q n
    | none => s

/-- Take what queue `q`'s ring holds. -/
def State.takeRing (s : State) (q : QueueId) : State := s.progress q ((s.queue q).ring.length / 64 + 1)

/-- R315: whether a port's host can reach its BARs: powered, the link up and the function in D0. -/
def State.barOpen (s : State) (p : PortId) : Bool := s.clk.powered && !s.clk.stopped && (s.pport p).up && !(s.pport p).d3

/-- R315, R316: a host write dropped. -/
def State.wdrop (s : State) (p : PortId) : State :=
  s.updPport p fun x => { x with wdrop := BitVec.ofNat 16 (satAdd 0xFFFF x.wdrop.toNat 1) }

/-- R315, R323, R324: a host write of `bytes` at offset `off` of queue `q`'s window. -/
def execRingWrite (p : PortId) (q : QueueId) (off : BitVec 16) (bytes : List Byte) (s : State) : Out :=
  let x := s.queue q
  if !s.barOpen p then .next s
  else if (s.pport p).st ≠ 2 || x.port ≠ some p || x.st ≠ 1 then .next (s.wdrop p)
  else if off.toNat ≠ x.pos % 0x10000 || x.credits * 64 < x.pos + bytes.length - x.head then
    .next (s.queueFault q (s.faultComp q))
  else
    .next ((s.updQueue q fun x => 
      { x with ring := x.ring ++ bytes, pos := x.pos + bytes.length,
               arrived := x.arrived ++ [(x.pos + bytes.length, s.time.track)] }).takeRing q)

/-- R336: a RUN that waits for a slot takes one that is free; its payload then follows. With none free nothing happens. -/
def execSlotTake (q : QueueId) (s : State) : Out :=
  match (s.queue q).cur with
  | none => .next s
  | some k =>
    if !s.clk.powered || s.clk.stopped || s.clk.frozen || k.mode != .waitSlot then .next s
    else
      match (s.disp.entry (hdrKernel k.hdr)).bind s.freeSlot with
      | none => .next s
      | some y =>
        let s1 := (s.takeSlot y).updQueue q fun x => { x with cur := some { k with mode := .toSlot y } }
        .next (s1.takeRing q)

/-! The check stage (R333). -/

/-- What the check stage decides. -/
inductive Verdict where
  | accept
  /-- Status and DETAIL; whether the completion goes to the error ring; the next expected sequence, if it changes. -/
  | reject (status detail : Nat) (toError : Bool) (expected : Option Word32)
deriving DecidableEq, Repr

/-- R333: checks 9 to 11, of a RUN. -/
def State.checkRun (s : State) (h : List Word64) : Verdict :=
  match s.disp.entry (hdrKernel h) with
  | none => .reject stUnknownKernel 0 false none
  | some e =>
    if !bit (hdrDw e 0) (hdrClass h) then .reject stUnknownKernel 0 false none
    else if entrySlot e < hdrPlen h || entrySlot e < hdrRlenMax h then .reject stTooLong (entrySlot e / 0x10000) false none
    else if entryGroup e ≠ 0x7F && !(s.group (entryGroup e)).formed then .reject stUnformed (entryGroup e) false none
    else .accept

/-- R333: checks 3 to 11, in their order. -/
def State.checkPacket (s : State) (q : QueueId) (h : List Word64) (payload : List Byte) : Verdict :=
  let x := s.queue q
  let agreed := match x.port with | some p => (s.pport p).agreed.toNat | none => 0
  if packetCheck h payload ≠ hdrCheck h then .reject stBadCheck 0 true (some (x.nextSeq + 1))
  else if hdrSeq h ≠ x.nextSeq.toNat then
    .reject stSequence (x.nextSeq.toNat % 2 ^ 16) (!hdrCaddrOk h) (some (BitVec.ofNat 32 (hdrSeq h + 1)))
  else if hdrVersion h ≠ agreed then .reject stBadVersion agreed true none
  else if hdrBad h q then .reject stBadHeader 0 true none
  else if hdrClass h ≠ clsNat x.cls then .reject stBadClass (clsNat x.cls) false none
  else if !opcodeOk (hdrOpcode h) (hdrClass h) then .reject stBadOpcode 0 false none
  else if hdrOpcode h = 1 then s.checkRun h
  else .accept

/-- R333, R340: send the completion of a rejected packet. -/
def State.rejectPacket (s : State) (q : QueueId) (h : List Word64) (status detail : Nat) (toError : Bool) : State :=
  let c := s.compOf q h status detail
  if toError then s.errorRing q { c with cookie := 0, seq := if status = stBadCheck then 0 else c.seq }
  else s.answer q h c

/-- R333, R347, R366: the command of an accepted packet. One whose slot lies in a cell that is in reset is owned by that cell
(R455, R457). -/
def State.newCmd (s : State) (q : QueueId) (p : PortId) (k : Pkt) : Cmd :=
  let h := k.hdr
  let x := s.pport p
  let down := match k.slot with | some y => if k.torn || s.cellDown y.leader then [y.leader] else [] | none => []
  { id := s.disp.nextId, hdr := h, payload := if k.slot.isSome then [] else k.got, port := p, epoch := x.epoch,
    version := x.agreed, queue := q, cls := (s.queue q).cls, vector := (s.queue q).cfg.vector, slot := k.slot,
    deadline := if hdrDlv h then some (fullTime (hdrDeadline h) k.at') else none,
    start := if hdrSched h then some (fullTime (hdrStart h) k.at') else none,
    released := false, at' := k.at', stage := .accepted, order := 0, admittedAt := 0, arb := 0, members := [], later := [],
    ended := [], resets := down, touched := none, endAt := s.time.track, answer := none, departed := false }

/-- R333, R336: accept a packet. -/
def State.acceptPacket (s : State) (q : QueueId) (p : PortId) (k : Pkt) : State :=
  let c := s.newCmd q p k
  let s1 := { s with disp := { s.disp with cmds := s.disp.cmds ++ [c], nextId := s.disp.nextId + 1 } }
  s1.updQueue q fun x => { x with nextSeq := BitVec.ofNat 32 (hdrSeq k.hdr + 1), lastSeq := BitVec.ofNat 32 (hdrSeq k.hdr),
                                  cur := none }

/-- R333: the whole packet at the front of queue `q` passes the check stage: accepted, or rejected with its outcome. The ring then
goes on. With no whole packet nothing happens; a frozen dispatcher checks no RUN. -/
def execCommandPacket (q : QueueId) (s : State) : Out :=
  let x := s.queue q
  match x.cur, x.port with
  | some k, some p =>
    if !s.clk.powered || s.clk.stopped || k.left ≠ 0 || k.mode == .waitSlot || (s.clk.frozen && hdrOpcode k.hdr == 1) then
      .next s
    else
      match s.checkPacket q k.hdr k.got with
      | .accept => .next ((s.acceptPacket q p k).takeRing q)
      | .reject status detail toError expected =>
        let s1 := (s.rejectPacket q k.hdr status detail toError).dropSlot k.slot
        let s2 := s1.updQueue q fun x => { x with cur := none, nextSeq := expected.getD x.nextSeq }
        .next (s2.takeRing q)
  | _, _ => .next s

end Sys2Proof.Machine
end

