-- ==== Sys2Proof/Machine/Time.lean ====
section
/-! DEFINITION. The time base (R353 to R366, R374): the disciplining loop, its inputs, changes of track time, WRAP and the
1PPS output. -/

namespace Sys2Proof.Machine

/-- Let time pass up to hub cycle `h`, if it is still to come. -/
def State.untilHc (s : State) (h : Nat) : State := s.advance (s.clk.periodsTo h)

/-- A signed number held within ± `top`. -/
def clampInt (top v : Int) : Int := max (-top) (min top v)

/-- Arithmetic right shift (R363). -/
def asr (v : Int) (n : Nat) : Int := v / 2 ^ n

/-- R363: INC for a loop term `adj` over a sample interval of `ms` milliseconds, within 1000 ppm of the nominal. -/
def TimeBase.loopInc (t : TimeBase) (adj : Int) (ms : Nat) : Word32 :=
  let i0 : Int := t.inc0.toNat
  let v := i0 + Int.tdiv (adj * 2 ^ 32) (1800000 * ms)
  BitVec.ofInt 32 (min (max v (i0 - i0 / 1000)) (i0 + i0 / 1000))

/-- R363: whether the first set has been made or decided. -/
def TimeBase.isSet (t : TimeBase) : Bool := t.set || t.changes.any TimeChange.first

/-- R363: one sample with error `e` in hub cycle `hc`: LASTERR, LOCKED, and the change that takes effect 64 hc later (R357). -/
def TimeBase.sample (t : TimeBase) (hc : Nat) (e : Int) (ms : Nat) : TimeBase :=
  let step := decide ((t.steplim.toNat : Int) ≤ e)
  let run := if e.natAbs ≤ 16 then t.goodRun + 1 else 0
  let t1 := { t with lasterr := clampInt (2 ^ 31 - 1) e, goodRun := run, holdover := false, badRun := 0
                     locked := if (t.isSet && step) || 64 < e.natAbs then false else t.locked || decide (4 ≤ run) }
  let due := hc + 64
  if !t.isSet then
    { t1 with changes := t1.changes ++ [{ due := due, add := e, first := true, stepped := false, inc := none, move := 0 }] }
  else if step then
    { t1 with changes := t1.changes ++ [{ due := due, add := e, first := false, stepped := true, inc := none, move := 0 }] }
  else
    let ff := if -(t.steplim.toNat : Int) < e then t.ff + asr e 4 else t.ff
    let i := t.loopInc (ff + asr e 2) ms
    { t1 with ff := ff,
              changes := t1.changes ++ [{ due := due, add := 0, first := false, stepped := false, inc := some i, move := 0 }] }

/-- R363: target less captured value, in signed units. -/
def timeErr (target captured : Word64) : Int := (target - captured).toInt

/-- R361: a rising edge of the 1PPS input. Outside PPS mode nothing happens. -/
def execPpsEdge (s : State) : Out :=
  let t := s.time
  if !s.clk.powered || s.clk.stopped || t.mode ≠ 1 then .next s
  else
    let t1 := { t with ppscap := t.track, edgeAt := s.clk.hc, target := t.target + 2 ^ 30 }
    .next { s with time := t1.sample s.clk.hc (timeErr t.target t.track) 1000 }

/-- R361: in PPS mode no edge has arrived for 1.5 s: PPSLOSS and HOLDOVER. Before that nothing happens. -/
def execPpsloss (s : State) : Out :=
  if s.clk.powered && !s.clk.stopped && s.time.mode == 1 && s.time.edgeAt + 2700000000 ≤ s.clk.hc then
    .next { s with time := { s.time with ppsloss := true, holdover := true } }
  else .next s

/-- R362: a dialogue failed. -/
def TimeBase.ptmFail (t : TimeBase) : TimeBase :=
  { t with ptmerr := true, badRun := t.badRun + 1, holdover := t.holdover || decide (3 ≤ t.badRun + 1) }

/-- R362: a signed quotient rounded to nearest, ties away from zero. -/
def roundDiv (a : Int) (b : Nat) : Int := if 0 ≤ a then (2 * a + b) / (2 * b) else -((2 * -a + b) / (2 * b))

/-- R362: whether a dialogue of PTM mode is due: PERIOD ms have passed since the last one. -/
def State.ptmDue (s : State) : Bool :=
  let t := s.time
  s.clk.powered && !s.clk.stopped && t.mode == 2
    && (match t.ptmAt with | some h => decide (h + t.period.toNat * hcPerMs ≤ s.clk.hc) | none => true)

/-- R362: a dialogue is made in this hc. -/
def State.ptmTime (s : State) (f : TimeBase → TimeBase) : State := { s with time := f { s.time with ptmAt := some s.clk.hc } }

/-- R362: the PTM master time at t1, in ns: that at which the responder received the request, less the link delay, half the round trip
less the responder's turnaround. The half is rounded down (log 63). -/
def ptmMaster (x : PtmTimes) : Word64 := x.received - w64 ((x.roundTrip.toNat - x.turnaround.toNat) / 2)

/-- R362: a PTM dialogue that is due, begun in this hc, with the times it gave; one whose response took more than 10 µs, or whose port is
down, fails. Outside PTM mode, and before PERIOD ms have passed, nothing happens. -/
def execPtmDialogue (x : PtmTimes) (s : State) : Out :=
  if !s.ptmDue then .next s
  else if !(s.pport s.time.port).up || 10000 < x.roundTrip.toNat then .next (s.ptmTime TimeBase.ptmFail)
  else
    .next (s.ptmTime fun t =>
      let d := roundDiv ((ptmMaster x - t.ptmns).toInt * 2 ^ 30) 1000000000
      t.sample s.clk.hc (timeErr (t.xtime + BitVec.ofInt 64 d) t.track) t.period.toNat)

/-- R362: a dialogue that is due gets no response. Else nothing happens. -/
def execPtmerr (s : State) : Out := .next (if s.ptmDue then s.ptmTime TimeBase.ptmFail else s)

/-- R357, R364: time runs to the hub cycle of the oldest decided change, which takes effect in it; a step emits a STEP record. With none
decided nothing happens. -/
def execTimeChangeApply (s : State) : Out :=
  match s.time.changes with
  | [] => .next s
  | c :: _ =>
    if !s.clk.powered then .next s
    else
      let s1 := s.untilHc c.due
      .next (s1.hubTo s1.clk.hc s1.time.changes.length)

/-- R374: bit 40 of track time has changed since the last WRAP: one record with bits [63:40]. With no change nothing happens. -/
def execWrap (s : State) : Out :=
  let now := s.time.track.toNat / 2 ^ 40
  if !s.clk.powered || s.clk.stopped || now = s.time.wrapSeen then .next s
  else .next (({ s with time := { s.time with wrapSeen := now } } : State).log 0x0C 0xF 0 0 0 (w64 now) 0)

/-- R365: the 1PPS output: while SET is 1 it rises when the seconds of track time change and falls when bits [29:0] reach
0x0666_6666; while SET is 0 it is low. -/
def execPpsOutEdge (s : State) : Out :=
  let t := s.time
  let sec := t.track.toNat / 2 ^ 30
  if !s.clk.powered || s.clk.stopped then .next s
  else if !t.set then .next { s with time := { t with ppsOut := false } }
  else if sec ≠ t.secSeen then .next { s with time := { t with ppsOut := true, secSeen := sec } }
  else if t.ppsOut && 0x06666666 ≤ t.track.toNat % 2 ^ 30 then .next { s with time := { t with ppsOut := false } }
  else .next s

/-- R359, R360: whether a time-of-day payload is refused. -/
def timeBad (dw : List Word64) (len : Nat) : Bool :=
  let w0 := (dw.getD 0 0).toNat
  len != 32 || bits w0 0 2 == 3 || bits w0 3 13 != 0 || bits w0 26 38 != 0 || dw.getD 3 0 != 0

/-- R359 to R362: apply an accepted time-of-day message; HOLD takes no samples. -/
def TimeBase.message (t : TimeBase) (hc : Nat) (dw : List Word64) : TimeBase :=
  let w0 := (dw.getD 0 0).toNat
  let mode := bits w0 0 2
  let x := dw.getD 1 0
  let y := dw.getD 2 0
  let period := if bits w0 16 10 = 0 then 10 else bits w0 16 10
  let t1 := { t with mode := BitVec.ofNat 2 mode, xtime := x, ptmns := y }
  if mode = 1 then { t1 with target := x + BitVec.ofInt 64 (sbits y.toNat 0 32), edgeAt := if t.mode = 1 then t.edgeAt else hc }
  else if mode = 2 then
    { t1 with port := BitVec.ofNat 1 (bits w0 2 1), period := BitVec.ofNat 10 period, badRun := if t.mode = 2 then t.badRun else 0,
              ptmAt := if t.mode = 2 then t.ptmAt else none }
  else { t1 with holdover := false }

/-- R359, R468: apply a time-of-day message that the arbiter admitted under a number, with a stamp, as message `order`; one admitted before
the last that was applied changes nothing. -/
def State.timeMessage (s : State) (dw : List Word64) (smbus : Bool) (arb : Word32) (stamp : Word64) (order : Nat) : State :=
  let s1 : State :=
    if order < s.time.msgOrder then s else { s with time := { s.time.message s.clk.hc dw with msgOrder := order + 1 } }
  s1.logAt stamp 0x0A 0xF 0 arb.toNat (bits (dw.getD 0 0).toNat 0 2 + b2n smbus * 4) (w64 s1.time.stat) 0

end Sys2Proof.Machine
end

