-- ==== Sys2Proof/Machine/HostCommand.lean ====
section
/-! DEFINITION. The dispatcher's admission (R337, R339), the completion of a command (R340 to R347), and the control commands NOP,
QCONFIG, TAKEOVER, GIVEBACK and TIME (R329, R331, R350, R351, R359). -/

namespace Sys2Proof.Machine

/-- The module's hub runs: powered and not stopped. -/
def State.hubOn (s : State) : Bool := s.clk.powered && !s.clk.stopped

/-- The dispatcher runs: the hub does, and the module is not frozen (R476). -/
def State.dispOn (s : State) : Bool := s.hubOn && !s.clk.frozen

/-- Command `id`. -/
def Disp.cmd (d : Disp) (id : Nat) : Option Cmd := d.cmds.find? fun c => c.id == id

/-- Replace a command. -/
def State.setCmd (s : State) (c : Cmd) : State :=
  { s with disp := { s.disp with cmds := s.disp.cmds.map fun x => if x.id = c.id then c else x } }

/-- Remove a command, with what is on its way to cells. -/
def State.dropCmd (s : State) (c : Cmd) : State :=
  { s with disp := { s.disp with cmds := s.disp.cmds.filter fun x => x.id != c.id } }

/-- R468: SEQ and QUEUE of a command. -/
def Cmd.word (c : Cmd) : Word64 := w64 (hdrSeq c.hdr + c.queue.toNat * 2 ^ 32)

/-- R347, R348: whether a command's completion may be written. -/
def State.mayComplete (s : State) (c : Cmd) : Bool :=
  let x := s.pport c.port
  !c.departed && x.up && x.epoch == c.epoch && (s.queue c.queue).port == some c.port

/-- R342: whether an event at track time `t` comes at or after the command's deadline. -/
def Cmd.lateAt (c : Cmd) (t : Nat) : Bool := match c.deadline with | some d => decide (d ≤ t) | none => false

/-- R340: the completion of a command. -/
def Cmd.comp (c : Cmd) (status detail kstat rlen : Nat) (trunc : Bool) (t : Nat) : Comp :=
  { version := c.version.toNat, status := status, cls := hdrClass c.hdr, queue := hdrQueue c.hdr, gen := hdrGen c.hdr,
    trunc := trunc, late := c.lateAt t, kstat := kstat, seq := hdrSeq c.hdr, rlen := rlen, cookie := hdrDw c.hdr 4, stamp := t,
    detail := detail }

/-- R341, R347: result bytes, completion and MSI-X message, or a completion discarded. -/
def State.writeComp (s : State) (c : Cmd) (k : Comp) (result : List Byte) : State :=
  if s.mayComplete c then
    let s1 := (s.hostWrite c.port (hdrCaddr c.hdr + 32) result).hostWrite c.port (hdrCaddr c.hdr) k.bytes
    if hdrIrq c.hdr then s1.msix c.port c.vector.toNat else s1
  else s.updPport c.port fun x => { x with cdrop := BitVec.ofNat 16 (satAdd 0xFFFF x.cdrop.toNat 1) }

/-- R336, R340 to R347: complete a command: completion, COMPLETE record, slot freed. `t` is the track time of its completing
event. -/
def State.complete (s : State) (c : Cmd) (status detail kstat : Nat) (result : List Byte) (trunc : Bool) (t : Nat) : State :=
  let k := c.comp status detail kstat result.length trunc t
  let s1 := s.writeComp c k result
  let s2 := s1.log 0x04 0xF c.port.toNat 0 (status + detail % 2 ^ 16 * 2 ^ 8 + b2n (s.mayComplete c) * 2 ^ 24) c.word
    (w64 result.length)
  (s2.dropSlot c.slot).dropCmd c

/-- Complete a command without result bytes. -/
def State.completeBare (s : State) (c : Cmd) (status detail : Nat) (t : Nat) : State := s.complete c status detail 0 [] false t

/-- R342: complete a command of the hub's own with a result, cut to RLEN_MAX. -/
def State.completeWith (s : State) (c : Cmd) (detail : Nat) (result : List Byte) (t : Nat) : State :=
  s.complete c stOk detail 0 (result.take (hdrRlenMax c.hdr)) (decide (hdrRlenMax c.hdr < result.length)) t

/-! Admission (R337). -/

/-- Accepted packets at the heads of their queues. An ATTEST that waits for its report holds back the later packets of its
queue (R432). -/
def Disp.heads (d : Disp) : List Cmd :=
  d.cmds.filter fun c => c.stage == .accepted && !d.cmds.any fun x =>
    x.queue == c.queue && x.id < c.id && (x.stage == .accepted || (x.stage == .admitted && hdrOpcode x.hdr == 0x15))

/-- R337: the round-robin choice: the first queue from the pointer on. -/
def rrPick (rr : Nat) (l : List Cmd) : Option Cmd :=
  l.foldl (fun a c =>
    let key (x : Cmd) : Nat := (x.queue.toNat + 1024 - rr % 1024) % 1024
    match a with
    | none => some c
    | some b => if key c < key b then some c else some b) none

/-- R337: the commands with the earliest deadline. -/
def earliest (l : List Cmd) : List Cmd :=
  l.filter fun c => l.all fun x => match c.deadline, x.deadline with
    | some a, some b => decide (a ≤ b)
    | none, some _ => false
    | _, none => true

/-- R478: packets that the arbiter admits while the module is frozen. -/
def frozenOk (c : Cmd) : Bool := c.cls == .control && (hdrOpcode c.hdr == 2 || hdrOpcode c.hdr == 0x13 || hdrOpcode c.hdr == 0x14)

/-- R337: the packet to admit. -/
def State.admitPick (s : State) : Option Cmd :=
  let d := s.disp
  let hs := if s.clk.frozen then d.heads.filter frozenOk else d.heads
  let of (k : Class) : List Cmd := hs.filter fun c => c.cls == k
  match rrPick d.rr (of .control) with
  | some c => some c
  | none =>
    match rrPick d.rr (earliest (of .comet)), rrPick d.rr (of .tide) with
    | some c, some t => if 15 ≤ d.tideWait then some t else some c
    | some c, none => some c
    | none, t => t

/-- R337: how long tide has waited, after an admission. -/
def Disp.tideAfter (d : Disp) (c : Cmd) : Nat :=
  match c.cls with
  | .control => d.tideWait
  | .comet => if d.heads.any fun x => x.cls == .tide then d.tideWait + 1 else 0
  | .tide => 0

/-- R337, R339: the next packet is admitted, at most one per hc. -/
def State.admitHc (s : State) : Nat := max s.clk.hc s.disp.admitHc

/-- R337, R339: one accepted packet is admitted into dispatch. With none waiting nothing happens. -/
def execPacketAdmit (s : State) : Out :=
  if !s.hubOn then .next s
  else
    match s.admitPick with
    | none => .next s
    | some c =>
      let d := s.disp
      let h := s.admitHc
      let c1 := { c with stage := .admitted, order := d.nextOrder, admittedAt := s.arbStamp h, endAt := s.arbStamp h, arb := d.arbSeq }
      let d1 := { d with rr := (c.queue.toNat + 1) % 1024, tideWait := d.tideAfter c, nextOrder := d.nextOrder + 1,
                         admitHc := (d.place h).1 + 1 }
      .next ((State.setCmd { s with disp := d1 } c1).logArbFrom h 0x01 0xF c.port.toNat
        (c.queue.toNat + hdrGen c.hdr * 2 ^ 10 + hdrOpcode c.hdr * 2 ^ 18 + clsNat c.cls * 2 ^ 26)
        (w64 (hdrSeq c.hdr + hdrDeadline c.hdr * 2 ^ 32)) 0)

/-! Control commands. -/

/-- The admitted command of lowest order that `p` marks. -/
def Disp.oldest (d : Disp) (p : Cmd → Bool) : Option Cmd :=
  d.cmds.foldl (fun a c =>
    if c.stage == .admitted && p c then
      match a with
      | none => some c
      | some b => if c.order < b.order then some c else some b
    else a) none

/-- R328, R436: the oldest admitted command that `p` marks, that neither SCHED nor FENCE holds back, and that has not run nor been
marked. -/
def Disp.ready (d : Disp) (p : Cmd → Bool) : Option Cmd :=
  d.oldest fun c => p c && !d.flagHeld c && c.touched.isNone && c.answer.isNone

/-- R340, R476: a control command has run: it completes at once, or, in a frozen module, whose completion engine stands still, after the
release. -/
def State.conclude (s : State) (c : Cmd) (status detail : Nat) : State :=
  if s.clk.frozen then s.setCmd { c with answer := some (status, detail) } else s.completeBare c status detail c.endAt.toNat

/-- R329: the oldest admitted NOP completes with OK. With none nothing happens. -/
def execNop (s : State) : Out :=
  match s.disp.ready fun c => hdrOpcode c.hdr == 2 with
  | some c => .next (if s.hubOn then s.conclude c stOk 0 else s)
  | none => .next s

/-- R331: apply a QCONFIG of port `p`: status, DETAIL and the state after it. -/
def State.qconfig (s : State) (p : PortId) (dw : List Word64) (len : Nat) : State × Nat × Nat :=
  let w0 := (dw.getD 0 0).toNat
  let t : QueueId := BitVec.ofNat 10 (bits w0 0 10)
  if len ≠ 32 then (s, stBadHeader, 0)
  else if (s.queue t).port ≠ some p then (s, stNotOwner, t.toNat)
  else
    let c : QCfg := { vector := BitVec.ofNat 6 (bits w0 10 6), craddr := dw.getD 1 0, erraddr := dw.getD 2 0 }
    let s1 := if bit w0 16 then (s.dropSlot (s.queue t).partialSlot).updQueue t Queue.openQ else s
    let s2 := s1.updQueue t fun x => { x with next := some c }
    (s2, stOk, (s2.queue t).gen.toNat)

/-- R331: the oldest admitted QCONFIG. With none nothing happens. -/
def execQconfig (s : State) : Out :=
  match s.disp.ready fun c => hdrOpcode c.hdr == 0x10 with
  | some c =>
    if s.dispOn then
      let r := s.qconfig c.port (bytesDw 4 c.payload) c.payload.length
      .next (r.1.completeBare c r.2.1 r.2.2 c.endAt.toNat)
    else .next s
  | none => .next s

/-- R350: one record of TAKEOVER's and GIVEBACK's result. -/
def moveRecord (q : Nat) (x : Queue) : List Byte := dwBytes [w64 (q + x.gen.toNat * 2 ^ 10), w64 x.lastSeq.toNat]

/-- R350: a queue opens under another owner. -/
def Queue.moveTo (x : Queue) (p : PortId) : Queue :=
  { x.openQ with owner := BitVec.ofNat 2 p.toNat, cfg := .reset, next := none, cur := none }

/-- R350, R351: move queues to port `p`, in ascending order; their records. -/
def State.moveQueues (s : State) (p : PortId) (which : Queue → Bool) : State × List Byte × Nat :=
  let l := s.queues.filter fun e => which e.2
  let s1 := l.foldl (fun s e =>
    let q : QueueId := BitVec.ofNat 10 e.1
    (s.dropSlot ((s.queue q).cur.bind Pkt.slot)).updQueue q fun x => x.moveTo p) s
  (s1, l.flatMap fun e => moveRecord e.1 (e.2.moveTo p), l.length)

/-- R468, R476: a PORT record of an event that the arbiter admits, in a frozen module after the release. -/
def State.portEvent (s : State) (p : PortId) (kind : Nat) (moved : Nat) : State :=
  let a := kind + (s.pport p).agreed.toNat * 2 ^ 8
  if s.clk.frozen then { s with disp := { s.disp with portDue := s.disp.portDue ++ [(p, a)] } }
  else s.logArb 0x07 0xF p.toNat a (w64 moved) 0

/-- R476, R478: the arbiter admits the PORT events that have waited for the release. -/
def State.portEvents (s : State) : State :=
  s.disp.portDue.foldl (fun s x => s.logArb 0x07 0xF x.1.toNat x.2 0 0) { s with disp := { s.disp with portDue := [] } }

/-- The other port. -/
def otherPort (p : PortId) : PortId := p + 1

/-- R350, R339: the oldest admitted TAKEOVER: refused while the other port is up or not down long enough. One that is taken completes by an
event of its own. With none nothing
happens. -/
def execTakeover (s : State) : Out :=
  match s.disp.ready fun c => hdrOpcode c.hdr == 0x11 with
  | some c =>
    if !s.dispOn then .next s
    else
      let o := s.pport (otherPort c.port)
      let downt := if o.up then 0 else s.msSince o.downAt
      if o.up || downt < s.disp.downms.toNat then .next (s.completeBare c stPortUp downt c.endAt.toNat)
      else
        let r := s.moveQueues c.port fun x => x.port == some (otherPort c.port)
        .next ((r.1.portEvent c.port 5 r.2.2).completeWith c r.2.2 r.2.1 (s.arbStamp s.clk.hc).toNat)
  | none => .next s

/-- R351, R339, R345: the oldest admitted GIVEBACK: refused while the other port's version is not agreed. One that is taken completes by an
event of its own. With none nothing happens. -/
def execGiveback (s : State) : Out :=
  match s.disp.ready fun c => hdrOpcode c.hdr == 0x12 with
  | some c =>
    if !s.dispOn then .next s
    else
      let o := otherPort c.port
      if (s.pport o).st ≠ 2 then .next (s.completeBare c stPortDown 0 c.endAt.toNat)
      else
        let r := s.moveQueues o fun x => x.port == some c.port && x.home.toNat == o.toNat
        .next ((r.1.portEvent c.port 6 r.2.2).completeWith c 0 r.2.1 (s.arbStamp s.clk.hc).toNat)
  | none => .next s

/-- R469: the number under which the Logbook tells what an admitted packet did: that of its admission, or, where the arbiter has admitted another
event since, none, so that the numbers stay in order (log 77). -/
def State.cmdArb (s : State) (c : Cmd) : Word32 := if c.arb + 1 = s.disp.arbSeq then c.arb else 0

/-- R359: the oldest admitted TIME: BAD_HEADER, or the message applied, unless a later admitted one has been, and OK with
TIME_STAT[15:0]. With none nothing happens. -/
def execTime (s : State) : Out :=
  match s.disp.ready fun c => hdrOpcode c.hdr == 0x13 with
  | some c =>
    let dw := bytesDw 4 c.payload
    if !s.hubOn then .next s
    else if timeBad dw c.payload.length then .next (s.conclude c stBadHeader 0)
    else
      let s1 := s.timeMessage dw false (s.cmdArb c) c.admittedAt c.order
      .next (s1.conclude c stOk (s1.time.stat % 2 ^ 16))
  | none => .next s

end Sys2Proof.Machine
end

