-- ==== Sys2Proof/Machine/HostRun.lean ====
section
/-! DEFINITION. The life of a RUN: held, sent, launched, ended, completed (R38 to R43, R60, R111, R129, R158, R219, R222, R304,
R305, R335 to R345, R364, R368, R436, R448, R468). -/

namespace Sys2Proof.Machine

/-- R448: whether a cell's last test is older than PERIOD. -/
def State.testOverdue (s : State) (g : CellId) : Bool :=
  s.safe.period.toNat * hcPerMs < s.clk.hc - (s.cell g).id.lastTest

/-- R337: whether a RUN waits for START, for earlier commands of its queue, for its group, for room in a ring queue, for a self-test
(R448), or behind an earlier command of its group. A RUN of an empty grid or of a group that is not formed waits for nothing (R335,
R38). -/
def State.runHeld (s : State) (c : Cmd) : Bool :=
  let n := s.groupNo c
  let g := s.group n
  n != 0x7F && g.formed &&
    (s.disp.flagHeld c || g.down
      || (g.orbit.any fun m => 4 ≤ s.ringsAt m || s.testOverdue m)
      || s.disp.cmds.any fun x => x.isRun && x.stage == .admitted && x.order < c.order && s.groupNo x == n)

/-- R338: the ring of a RUN, the same for every member. -/
def State.ringOf (s : State) (c : Cmd) : Ring :=
  let e := s.entryOf c
  let h := c.hdr
  let lead := (s.group (entryGroup e)).leader
  let slot := match c.slot with | some x => sliceAddr x.leader x.off | none => 0
  let s9 := hdrKernel h + c.queue.toNat * 2 ^ 16 + clsNat c.cls * 2 ^ 26 + c.port.toNat * 2 ^ 28 + lead.toNat * 2 ^ 32
    + entryGroup e * 2 ^ 40
  { cmd := c.id, kernel := BitVec.ofNat 16 (hdrKernel h), queue := c.queue, cls := c.cls, port := c.port,
    gen := BitVec.ofNat 8 (hdrGen h), seq := BitVec.ofNat 32 (hdrSeq h), entry := w64 (winBase + 4 * bits (hdrDw e 1) 0 16),
    sp := w64 (bits (hdrDw e 1) 32 32),
    args := [w64 slot, w64 (hdrPlen h), w64 (hdrDw h 6), w64 s9,
      (match c.deadline with | some d => w64 d | none => BitVec.allOnes 64), w64 (hdrRlenMax h), w64 (hdrRestart h),
      w64 (hdrSeq h)],
    restart := BitVec.ofNat 16 (hdrRestart h), seed := BitVec.ofNat 32 (bits (hdrDw e 0) 32 32) }

/-- R44: a ring sent toward member `m`. -/
def Ring.toward (r : Ring) (m : CellId) : RingFlight := { cell := m, link := hubRouter m, ring := r }

/-- R43: send the leader's ring; the other members' wait for the leader's acknowledgement. -/
def State.sendRun (s : State) (c : Cmd) : State :=
  let g := s.group (s.groupNo c)
  let r := s.ringOf c
  let c1 := { c with stage := .sent, members := g.orbit, later := g.orbit.filter fun m => m != g.leader }
  let s1 := s.setCmd c1
  { s1 with disp := { s1.disp with flying := s1.disp.flying ++ [r.toward g.leader],
                                   acks := if c1.later.isEmpty then s1.disp.acks else s1.disp.acks ++ [c.id] } }

/-- R335, R337, R368, R456: what becomes of a RUN that nothing holds. -/
def State.dispatchRun (s : State) (c : Cmd) : State :=
  let n := s.groupNo c
  let now := s.time.track.toNat
  if n = 0x7F then s.completeBare c stOk 0 c.endAt.toNat
  else if !(s.group n).formed then s.completeBare c stUnformed n c.endAt.toNat
  else if c.lateAt now then s.completeBare c stLate 0 now
  else s.sendRun c

/-- R337: the oldest admitted RUN that nothing holds is sent, or completed at once. With none nothing happens. -/
def execRun (s : State) : Out :=
  if !s.dispOn then .next s
  else
    match s.disp.oldest fun c => c.isRun && !c.over && !s.runHeld c with
    | some c => .next (s.dispatchRun c)
    | none => .next s

/-- R337, R38, R39: the hold of command `c` has cleared: it is sent, or completed at once. While something still holds it nothing
happens. -/
def execHeldRunRelease (c : Nat) (s : State) : Out :=
  match s.disp.cmd c with
  | some x =>
    if s.dispOn && x.isRun && x.stage == .admitted && !x.over && !s.runHeld x then .next (s.dispatchRun x) else .next s
  | none => .next s

/-- R337: whether a RUN has been accepted and not been sent. -/
def Cmd.unsent (c : Cmd) : Bool := !c.over && (c.stage == .accepted || c.stage == .admitted)

/-- R368: whether SCHED holds a RUN to a START at or after its deadline: it is judged when it is released. -/
def Cmd.judgedAtStart (c : Cmd) : Bool := !c.released && (match c.start with | some t => c.lateAt t | none => false)

/-- R368: whether a RUN's deadline expires by track time `now`. -/
def Cmd.expires (c : Cmd) (now : Nat) : Bool := c.isRun && c.unsent && c.lateAt now && !c.judgedAtStart

/-- R368: whether a held command's START comes by track time `now`. -/
def Cmd.starts (c : Cmd) (now : Nat) : Bool :=
  !c.over && c.stage == .admitted && !c.released && (match c.start with | some t => decide (t ≤ now) | none => false)

/-- R364: whether no expiry and no start that is due by track time `now` has a lower full value than `v`. -/
def Disp.noneBefore (d : Disp) (now v : Nat) : Bool :=
  d.cmds.all fun c => (!c.expires now || c.deadline.all fun w => decide (v ≤ w)) && (!c.starts now || c.start.all fun w => decide (v ≤ w))

/-- R364, R368, R339: track time has reached the START of held command `c`, and none that is due has a lower value: it is released; a RUN
is LATE when START lies at or after its deadline, and is sent if nothing else holds it. Before that nothing happens. -/
def execScheduledStart (c : Nat) (s : State) : Out :=
  match s.disp.cmd c with
  | some x =>
    let now := s.time.track.toNat
    let t := x.start.getD 0
    if s.dispOn && x.starts now && s.disp.noneBefore now t then
      let x1 := { x with released := true, endAt := s.arbStamp s.clk.hc }
      let s1 := (s.setCmd x1).logArb 0x06 0xF x.port.toNat 0 x.word 0
      if !x.isRun then .next s1
      else if x.lateAt t then .next (s1.completeBare x1 stLate 0 (s.arbStamp s.clk.hc).toNat)
      else if s1.runHeld x1 then .next s1
      else .next (s1.dispatchRun x1)
    else .next s
  | none => .next s

/-- R364, R368, R339: a RUN not yet sent reaches its deadline, and none that is due has a lower value: it completes LATE. Before that nothing
happens. -/
def execDeadlineExpiry (c : Nat) (s : State) : Out :=
  match s.disp.cmd c with
  | some x =>
    let now := s.time.track.toNat
    if s.dispOn && x.expires now && s.disp.noneBefore now (x.deadline.getD 0) then
      .next ((s.logArb 0x05 0xF x.port.toNat 0 x.word 0).completeBare x stLate 0 (s.arbStamp s.clk.hc).toNat)
    else .next s
  | none => .next s

/-- R43, R448: the rings of a command to those of its other members that `p` marks and that are not overdue for a self-test are sent; the rest
wait for their test. -/
def State.sendLater (s : State) (x : Cmd) (p : CellId → Bool) : State :=
  let now (g : CellId) : Bool := p g && !s.testOverdue g
  let r := s.ringOf x
  let s1 := s.setCmd { x with later := x.later.filter fun g => !now g }
  { s1 with disp := { s1.disp with flying := s1.disp.flying ++ (x.later.filter now).map r.toward } }

/-- R22: whether the acknowledgement of command `x` would overtake that of a command sent before it: both come from one leader in one class. -/
def State.ackOvertakes (s : State) (x : Cmd) : Bool :=
  (s.disp.acks.takeWhile fun i => i != x.id).any fun i =>
    match s.disp.cmd i with
    | some y => y.cls == x.cls && (s.group (s.groupNo y)).leader == (s.group (s.groupNo x)).leader
    | none => false

/-- R22, R43: the leader has acknowledged the payload: the other members' rings are sent. With no such acknowledgement awaited nothing
happens. -/
def execPayloadAck (c : Nat) (s : State) : Out :=
  match s.disp.cmd c with
  | some x =>
    if s.dispOn && x.stage == .sent && (s.disp.acks.any fun i => i == c) && !s.ackOvertakes x then
      .next (State.sendLater { s with disp := { s.disp with acks := s.disp.acks.erase c } } x fun _ => true)
    else .next s
  | none => .next s

/-- R448: cell `g` has been tested: the rings that waited for it are sent, in the order of their commands' sending. -/
def State.ringsAfterTest (s : State) (g : CellId) : State :=
  s.disp.cmds.foldl (fun s c =>
    match s.disp.cmd c.id with
    | some x => if (x.later.any fun m => m == g) && !s.disp.acks.any fun i => i == x.id then s.sendLater x fun m => m == g else s
    | none => s) s

/-- R39, R40: the oldest ring on its way to cell `g` arrives, if it is that of command `c`; a cell in reset takes none (R455). -/
def execRing (g : CellId) (c : Nat) (s : State) : Out :=
  match s.disp.flying.find? fun x => x.cell == g with
  | some x =>
    if s.dispOn && x.ring.cmd == c then
      let s1 := { s with disp := { s.disp with flying := s.disp.flying.erase x } }
      .next (if s.cellDown g then s1 else s1.updCell g fun y => { y with rings := y.rings ++ [x.ring] })
    else .next s
  | none => .next s

/-! Launch. -/

/-- R60: the two generators at launch. -/
def launchSeed (seed : Word32) (kernel : BitVec 16) (g : CellId) : Word32 :=
  let k : Word32 := BitVec.ofNat 32 (kernel.toNat * 0x10001)
  let x := seed ^^^ k ^^^ BitVec.ofNat 32 (g.toNat * 0x1010101)
  if x = 0 then 1 else x

/-- R158, R338: the pilot's registers at launch. -/
def launchRegs (r : Ring) : Tbl Word64 :=
  (2, r.sp) :: ((List.range 8).map fun i => (i + 6, r.args.getD i 0))

/-- R462: TRC_TAG of a command. -/
def Ring.tag (r : Ring) : Word64 :=
  w64 (r.kernel.toNat + r.queue.toNat * 2 ^ 16 + r.port.toNat * 2 ^ 26 + r.seq.toNat * 2 ^ 32)

/-- R43, R219: first issue cc of a kernel whose launch cc is `now`: launch-state load 32, window read 4, decode 2, issue 1. -/
def launchIssue (now settled : Nat) : Nat := max (now + 38) (settled + 6)

/-- R43, R60, R102, R129, R158, R222, R286, R338, R460: the launch-state load. The pass orbit inbox, and the headers of lost packets, stay as they
are (log 45). -/
def Cell.launch (c : Cell) (g : CellId) (r : Ring) (now : Nat) (track : Word64) : Cell :=
  let seed := launchSeed r.seed r.kernel g
  let next := launchIssue now (c.windowSettled now)
  { c with
    rings := c.rings.tail
    run := some { cmd := r.cmd, kernel := r.kernel, queue := r.queue, cls := r.cls, port := r.port, gen := r.gen, seq := r.seq }
    pil := { c.pil with s := launchRegs r, w := [], pc := r.entry, mode := .kernel, next := next, nextWhy := 6, wbs := [], micros := [], rep := none,
                        seq := none }
    exc := { c.exc with pl := false, ceil := false, im := false, pim := false, guardEnd := none }
    fp := { prm := 0, vrm := 0, pil := 0, vec := 0, drn := 0, srv := seed, srd := seed.rotateLeft 16 }
    vec := { c.vec with v := [], m := [], vl := 0, vt := 0, feed := [], feedSkip := 0 }
    arr := { c.arr with restart := r.restart, done := 0, stallShown := 0, abortCause := 0, abortPidx := 0, abortFloor := 0,
                        abortValid := false, lastIssued := 0, lastCommitted := 0 }
    mov := { c.mov with issued := 0, code := 0, valid := false, more := false, ticket := 0, errAddr := 0, stopped := false }
    trc := { (c.span 0 (now + 1) next 6).trc with launch := some (now, r.tag), stamp := track.setWidth 40 } }

/-- R40, R338, R448: a cell whose pilot is idle and that is not under test launches its oldest ring. Otherwise nothing
happens. -/
def execKernelLaunch (g : CellId) (s : State) : Out :=
  let c := s.cell g
  match c.rings with
  | [] => .next s
  | r :: _ =>
    if s.live g && c.pil.mode == .idle && c.id.selfTest.isNone then
      let s1 := s.updCell g fun c => c.launch g r s.clk.cc s.time.track
      .next (s1.note g 0x02 r.kernel.toNat (w64 (r.seq.toNat + r.queue.toNat * 2 ^ 32)) (w64 r.restart.toNat))
    else .next s

/-! Ends. -/

/-- R342: a member's part of a command has ended; the first end counts. -/
def Cmd.memberEnd (c : Cmd) (g : CellId) (how : EndHow) (t : Word64) : Cmd :=
  if c.ended.any fun x => x.1 == g then c else { c with ended := c.ended ++ [(g, how)], endAt := t }

/-- R111, R436: end a command in those of its members that have not ended, but for `but`. -/
def State.endMembers (s : State) (c : Cmd) (but : Option CellId) : State :=
  let ms := c.members.filter fun m =>
    some m != but && !(c.ended.any fun x => x.1 == m) && !(s.disp.ends.any fun x => x.1 == m && x.2 == c.id)
  { s with disp := { s.disp with ends := s.disp.ends ++ ms.map fun m => (m, c.id) } }

/-- Remove the oldest message of cell `g` to the event port. -/
def State.popOut (s : State) (g : CellId) : State := s.updCell g fun c => { c with out := c.out.tail }

/-- R155: the vector orbit inboxes of a command's members are cleared; a member that runs another command keeps its own. -/
def State.clearInboxes (s : State) (c : Cmd) : State :=
  c.members.foldl (fun s m =>
    let y := s.cell m
    if y.vec.inbox.isEmpty || (match y.run with | some r => r.cmd != c.id | none => false) then s
    else s.updCell m fun y => { y with vec := { y.vec with inbox := [] } }) s

/-- R339, R342, R454: the oldest message of cell `g` is a kernel-end report, which is admitted. Otherwise nothing happens. -/
def execKernelEndReport (g : CellId) (s : State) : Out :=
  match (s.cell g).out with
  | .ended id exit mv floor :: _ =>
    if !s.dispOn then .next s
    else
      let s1 := s.popOut g
      match s.disp.cmd id with
      | none => .next (s1.sendNotes g)
      | some x =>
        let s2 := s1.setCmd (x.memberEnd g (.kend exit mv floor) (s.arbStamp s.clk.hc))
        .next ((s2.logArb 0x03 0xF g.toNat 0 exit x.word).sendNotes g)
  | _ => .next s

/-- R111, R155, R339, R454: the oldest message of cell `g` is an abort report, which is admitted, and the hub ends the command in every
other member. Otherwise nothing happens. -/
def execAbortReport (g : CellId) (s : State) : Out :=
  match (s.cell g).out with
  | .aborted id _ floor :: _ =>
    if !s.dispOn then .next s
    else
      let s1 := s.popOut g
      match id.bind s.disp.cmd with
      | none => .next (s1.sendNotes g)
      | some x =>
        let x1 := x.memberEnd g (.aborted floor) (s.arbStamp s.clk.hc)
        let s2 := ((s1.setCmd x1).endMembers x1 (some g)).clearInboxes x1
        .next ((s2.logArb 0x03 0xF g.toNat 1 0 x.word).sendNotes g)
  | _ => .next s

/-- R111: whether a pass abort ended a member. -/
def EndHow.isAbort : EndHow → Bool
  | .aborted _ => true
  | _ => false

/-- R155: whether the hub ends a command by PASS_ABORTED or CELL_RESET. -/
def Cmd.clears (c : Cmd) : Bool := !c.resets.isEmpty || c.ended.any fun e => e.2.isAbort

/-- R111, R436: the member had not launched command `x`: its ring is withdrawn, and its part ends. -/
def State.endUnlaunched (s : State) (g : CellId) (x : Cmd) : State :=
  let s1 := s.updCell g fun c => { c with rings := c.rings.filter fun r => r.cmd != x.id }
  let s2 := { s1 with disp := { s1.disp with flying := s1.disp.flying.filter fun r => !(r.cell == g && r.ring.cmd == x.id) } }
  let x1 := { x.memberEnd g .byHub s.time.track with later := x.later.filter fun m => m != g }
  (s2.setCmd x1).log 0x03 0xF g.toNat 0 2 0 x.word

/-- R111, R223, R436: the hub's end of command `c` reaches member `g`: its current pass aborts with cause GROUP and HUBREQ becomes
pending. A member that has ended is not touched; with no such end on its way nothing happens. -/
def execHubEndCommand (g : CellId) (c : Nat) (s : State) : Out :=
  if !s.dispOn || !s.disp.ends.any (fun x => x.1 == g && x.2 == c) then .next s
  else
    let s1 := { s with disp := { s.disp with ends := s.disp.ends.filter fun x => !(x.1 == g && x.2 == c) } }
    if s.cellDown g then .next s1
    else if (s.cell g).run.map Running.cmd == some c then
      .next (s1.updCell g fun y =>
        let y1 := y.abortGroup s.clk.cc
        { y1 with exc := { y1.exc with hubreq := true },
                  vec := { y1.vec with inbox := if (s.disp.cmd c).any Cmd.clears then [] else y1.vec.inbox } })
    else
      match s.disp.cmd c with
      | some x => if x.ended.any fun e => e.1 == g then .next s1 else .next (s1.endUnlaunched g x)
      | none => .next s1

/-! Completion (R342 to R347). -/

/-- The lowest cell that `f` finds something in, among the members that ended by KEND. -/
def lowestKend {α : Type} (l : List (CellId × EndHow)) (f : Word64 → Option (BitVec 4) → Option α) : Option (CellId × α) :=
  l.foldl (fun a e =>
    match e.2 with
    | .kend exit mv _ =>
      match f exit mv with
      | some v =>
        match a with
        | some b => if e.1.toNat < b.1.toNat then some (e.1, v) else a
        | none => some (e.1, v)
      | none => a
    | _ => a) none

/-- R111: a member's restart floor: 0 where it had not launched. -/
def EndHow.floor : EndHow → Nat
  | .kend _ _ f => f.toNat
  | .aborted f => f.toNat
  | .byHub => 0

/-- R111: the lowest floor of the members, if one has aborted. -/
def lowestFloor (l : List (CellId × EndHow)) : Option Nat :=
  if l.any fun e => e.2.isAbort then (l.map fun e => e.2.floor).min? else none

/-- R344, R345: status and DETAIL of an ended command. -/
def Cmd.verdict (c : Cmd) : Nat × Nat :=
  match c.resets with
  | g :: _ => (stCellReset, g.toNat)
  | [] =>
    match c.touched with
    | some n => (stHwError, n.toNat % 2 ^ 16)
    | none =>
      match c.answer with
      | some x => x
      | none =>
        match lowestFloor c.ended with
        | some f => (stPassAborted, f)
        | none =>
          match lowestKend c.ended fun exit _ => if bit exit.toNat 63 then some () else none with
          | some x => (stKernelFault, x.1.toNat)
          | none =>
            match lowestKend c.ended fun _ mv => mv with
            | some x => (stMover, x.1.toNat + x.2.toNat * 2 ^ 8)
            | none => (stOk, 0)

/-- R342, R436: the slot and the leader's exit word, from which a result is taken: where the leader ended by KEND and was not reset since,
and no failure touched the command. -/
def Cmd.result (c : Cmd) : Option (Slot × Nat) :=
  if c.touched.isSome then none
  else
    c.slot.bind fun x =>
      if c.resets.any (· == x.leader) then none
      else
        match c.ended.find? fun e => e.1 == x.leader with
        | some (_, .kend exit _ _) => some (x, exit.toNat)
        | _ => none

/-- R342, R440: complete an ended command; a result slot with an uncorrectable error marks it instead, by a record
that the arbiter admits first. -/
def State.completeRun (s : State) (c : Cmd) : State :=
  let v := c.verdict
  match c.result with
  | some (x, exit) =>
    let rlen := bits exit 0 32
    let n := min rlen (min (hdrRlenMax c.hdr) x.size)
    let sl := (s.cell x.leader).slice
    if s.hubRecs.any fun r => r.cmd == some c.id then s
    else if sl.anyBad sramUnit x.off n then s.raiseHub mechSram actCommand 1 9 x.leader.toNat 0 (sliceAddr x.leader (max x.off (sl.firstBad sramUnit x.off n * sramUnit))) (some c.id)
    else
      (s.correctAt x.leader (.slice x.leader x.off) n).complete c v.1 v.2 (bits exit 32 16) (sl.readBytes x.off n) (decide (n < rlen))
        c.endAt.toNat
  | none => s.complete c v.1 v.2 0 [] false c.endAt.toNat

/-- R342, R436, R476: command `c` has ended in every member and completes; a control command that a failure has marked, or that has run in a
frozen module, does so too. Before that nothing happens. -/
def execCommandComplete (c : Nat) (s : State) : Out :=
  match s.disp.cmd c with
  | some x => if s.dispOn && x.over then .next (s.completeRun x) else .next s
  | none => .next s

end Sys2Proof.Machine
end

