-- ==== Sys2Proof/Machine/HostPort.lean ====
section
/-! DEFINITION. PCIe ports (R312, R320 to R322, R347 to R349, R487): links, the version, and what a departure drops. -/

namespace Sys2Proof.Machine

/-- R320: the port is in L0 and offers its version once the module is READY. -/
def PciPort.offer (x : PciPort) (ready : Bool) : PciPort := { x with st := if ready then 1 else 0, agreed := 0 }

/-- R348: drop what the port's host had under way: partial packets, packets in the check stage, and commands not sent; those sent run to
their end, and their completions are discarded. -/
def State.departCmds (s : State) (p : PortId) : State :=
  let qs := s.queues.filter fun e => e.2.port == some p
  let s1 := qs.foldl (fun s e =>
    let q : QueueId := BitVec.ofNat 10 e.1
    (s.dropSlot ((s.queue q).cur.bind Pkt.slot)).updQueue q fun x => { x with ring := [], arrived := [], cur := none }) s
  let gone := s1.disp.cmds.filter fun c => c.port == p && c.stage != .sent
  let s2 := gone.foldl (fun s c => (s.dropSlot c.slot).dropCmd c) s1
  { s2 with disp := { s2.disp with cmds := s2.disp.cmds.map fun c => if c.port = p then { c with departed := true } else c } }

/-- R318, R320, R348, R476: the port leaves L0. In a frozen module the link layers run: what the port had under way is dropped at once, and the
arbiter admits the event after the release. -/
def State.linkLeaves (s : State) (p : PortId) : State :=
  let s1 := (s.departCmds p).updPport p fun x =>
    { x with up := false, speed := 0, width := 0, downAt := s.clk.hc, st := 0, agreed := 0 }
  s1.portEvent p 2 0

/-- R312, R318, R320: a link enters L0 at a speed and width, with a maximum payload size. A port that is up, or that PERST# holds, does not, nor one of a module
whose hub is in PHASE 0, as under SCANEN: links train from its end on (R423, R486). -/
def execLinkUp (p : PortId) (rate : LinkRate) (mps : BitVec 2) (s : State) : Out :=
  let x := s.pport p
  if !s.hubOn || x.up || x.perst || s.boot.phase = 0 then .next s
  else
    let s1 := s.updPport p fun x => ({ x with up := true, speed := rate.speed, width := rate.width, mps := mps } : PciPort).offer s.boot.ready
    .next (s1.portEvent p 1 0)

/-- R348: a link leaves L0. A port that is down does not. -/
def execLinkDown (p : PortId) (s : State) : Out :=
  if s.hubOn && (s.pport p).up then .next (s.linkLeaves p) else .next s

/-- R349: a Function Level Reset acts as a departure and a return; the link stays up. -/
def execFlr (p : PortId) (s : State) : Out :=
  if s.hubOn && (s.pport p).up then
    let s1 := (s.departCmds p).updPport p fun x => x.offer s.boot.ready
    .next (s1.portEvent p 4 0)
  else .next s

/-- R487: PERST# changes; while it is asserted the port is out of L0. -/
def execPerstAssert (p : PortId) (level : Bool) (s : State) : Out :=
  let s1 := s.updPport p fun x => { x with perst := level }
  .next (if level && s.hubOn && (s.pport p).up then s1.linkLeaves p else s1)

/-- R320: whether a version that HMAX and HMIN give is acceptable, and which. -/
def negotiate (hmax hmin : Nat) : Option Nat :=
  let v := min hmax 0x32
  if hmin ≤ v && (0x30 ≤ v || (0x20 ≤ v && v ≤ 0x2F)) then some v else none

/-- R322: a port's queues open. -/
def State.openQueues (s : State) (p : PortId) : State :=
  { s with queues := s.queues.map fun e => if e.2.port == some p then (e.1, e.2.openQ) else e }

/-- R320, R321: a write of PCI_VHOSTp. GO counts only while STATE is OFFERED. -/
def State.versionGo (s : State) (p : PortId) (v : Nat) : State :=
  let s1 := s.updPport p fun x => { x with hmax := BitVec.ofNat 8 (bits v 0 8), hmin := BitVec.ofNat 8 (bits v 8 8) }
  if !bit v 16 || (s.pport p).st ≠ 1 then s1
  else
    match negotiate (bits v 0 8) (bits v 8 8) with
    | none => s1.updPport p fun x => { x with st := 3 }
    | some a =>
      let s2 := (s1.updPport p fun x => { x with st := 2, agreed := BitVec.ofNat 8 a, epoch := x.epoch + 1 }).openQueues p
      s2.log 0x07 0xF p.toNat 0 (3 + a * 2 ^ 8) 0 0

/-- R320: a host's 32-bit write of PCI_VHOSTp through its open BAR2. -/
def execVersionGo (p : PortId) (v : Word32) (s : State) : Out :=
  .next (if s.barOpen p then s.versionGo p v.toNat else s)

/-- R312: a host puts the function into D3hot or back into D0. -/
def execD3hot (p : PortId) (d3 : Bool) (s : State) : Out :=
  .next (if s.hubOn && (s.pport p).up then s.updPport p fun x => { x with d3 := d3 } else s)

end Sys2Proof.Machine
end

