-- ==== Sys2Proof/Machine/Optical.lean ====
section
/-! DEFINITION. Optical ports (R370, R371, R377 to R390, R396): training and its exchanges, frames, retraining, a port that goes
down, and the delivery of orbit packets. -/

namespace Sys2Proof.Machine

/-! Packets of KIND 0x20 and above (R387). -/

/-- R385: the receiver frees flits of a class. -/
def OptPort.free (x : OptPort) (c n : Nat) : OptPort :=
  let k := x.klass c
  { x with cls := x.cls.set c { k with freed := (k.freed + n) % 4096 } }

/-- A packet's KIND. -/
def OptPkt.kind (k : OptPkt) : Nat := bits k.head.toNat 0 8

/-- R22, R393: what sends a packet and what takes it, with its class: cells, page engines, or the ports themselves. Packets of one flow stay in
order. -/
def OptPkt.flow (k : OptPkt) : Nat × Nat × Nat × Nat :=
  let h := k.head.toNat
  if k.kind < 0x20 then (0, bits h 96 16 * 2 ^ 8 + bits h 8 8, bits h 16 8, clsNat k.cls)
  else (if k.kind < 0x30 then 1 else 2, bits h 16 16, bits h 32 16, clsNat k.cls)

/-- The oldest received packet that `p` marks and that no older one of its flow precedes, and the others; `seen` are the flows of older ones. -/
def takeRx (p : OptPkt → Bool) : List OptPkt → List (Nat × Nat × Nat × Nat) → Option (OptPkt × List OptPkt)
  | [], _ => none
  | k :: rest, seen =>
    if p k && !seen.contains k.flow then some (k, rest)
    else match takeRx p rest (k.flow :: seen) with | some (x, r) => some (x, k :: r) | none => none

/-- Take the oldest received packet of a KIND at port `p` that overtakes none (R393); its buffer is freed, that of a control packet was on
arrival (R386). -/
def State.takePkt (s : State) (p : LinkId) (ok : Nat → Bool) : Option (OptPkt × State) :=
  match takeRx (fun k => ok k.kind) (s.opt.port p).rx [] with
  | none => none
  | some (k, rest) =>
    let c := clsNat k.cls
    some (k, s.updPort p fun x => let y := { x with rx := rest }; if c = 0 then y else y.free c k.flits.length)

/-! Training (R377 to R379, R388, R389). -/

/-- Set bits of a lane mask. -/
def laneCount (v : BitVec 16) : Nat := ((List.range 16).filter fun i => v.getLsbD i).length

/-- R378: the spares that two ports of an engine take, where `f0` and `f1` of their lanes have failed and `s` spares work: every failed lane is
replaced, or the port with fewer is filled first, on a tie the first. -/
def spareSplit (f0 f1 s : Nat) : Nat × Nat :=
  if f0 + f1 ≤ s then (f0, f1)
  else if f1 < f0 then (min f0 (s - min f1 s), min f1 s)
  else (min f0 s, min f1 (s - min f0 s))

/-- R379: the width code of a port with `n` working logical lanes, its spares among them; 0 where it cannot run. -/
def widthOf (n : Nat) : Nat := if 16 ≤ n then 2 else if 8 ≤ n then 1 else 0

/-- R387: the header of a control packet to the peer of port `p`. -/
def State.peerHeader (s : State) (p : LinkId) (kind rest : Nat) : FlitBits :=
  optHeader kind s.opt.modnum.toNat (s.opt.port p).cfg.peerMod.toNat 0 0 rest

/-- R388: the HELLO of port `p`. -/
def State.hello (s : State) (p : LinkId) : OptPkt :=
  let o := s.opt
  { head := s.peerHeader p 0x30 (0x32 * 2 ^ 64 + 0x30 * 2 ^ 72 + o.chainid.toNat * 2 ^ 80 + o.modnum.toNat % 2 ^ 16 * 2 ^ 112
      + o.role.toNat * 2 ^ 128 + p.toNat * 2 ^ 130), data := [] }

/-- R418: the temperature step of `t` °C. -/
def tempStep (t : Int) : Nat := (min (max (t / 2) 0) 63).toNat

/-- R418: the supply band of `mv` millivolts. -/
def supplyBand (mv : Nat) : Nat := min ((mv - 40000) / 500) 40

/-- A signed byte of a curve body. -/
def curveByte (b : List Byte) (i : Nat) : Int := (b.getD i 0).toInt

/-- R377, R380: port `p`'s laser bias and equaliser offset from its engine's load curve, at engine temperatures `temps` in °C and `mv`
millivolts. -/
def State.curvePort (s : State) (temps : List Int) (mv : Nat) (p : Nat) : State :=
  match s.gov.optCurves.get [] (p / 2) with
  | [] => s
  | b =>
    let i := 2 * (41 * tempStep (temps.getD (p / 2) 0) + supplyBand mv)
    s.updPort (BitVec.ofNat 3 p) fun x => { x with bias := curveByte b i, eq := curveByte b (i + 1) }

/-- R377: hc that the training of a port takes at most. -/
def trainHc : Nat := 120 * hcPerMs

/-- R377: steps 2 to 5 of training, up to the HELLO it sends; `n` spares serve the port. -/
def State.trainPort (s : State) (p : LinkId) (r : LaneResult) (n : Nat) : State :=
  let w := widthOf (laneCount r.working + n)
  if !r.light then s.portDown p 1
  else if w = 0 || r.otherFailure then s.portDown p 2
  else
    let s1 := s.updPort p fun x =>
      { x with linked := true, width := BitVec.ofNat 2 w, spares := BitVec.ofNat 3 n, lanes := r.working, why := 0, expect := 0,
               nextSeq := 0, nak := false, replay := [], rx := [], cls := [], crv := 0, trainBy := s.clk.hc + trainHc,
               formed := none, ack := none, meas := none, fackAt := s.clk.hc }
    s1.optSend p 0 (s.hello p)

/-- R389: the PROBE of number `n` waits to leave port `p`; it takes T1 as it does. -/
def State.sendProbe (s : State) (p : LinkId) (n : Nat) : State :=
  s.optSend p 0 { head := s.peerHeader p 0x40 (n * 2 ^ 320), data := [] }

/-- R370, R371: a measurement of `n` exchanges begins. -/
def State.measure (s : State) (p : LinkId) (n : Nat) : State :=
  (s.updPort p fun x => { x with meas := some { total := n, sent := [], got := [] } }).sendProbe p 0

/-- R388: once both ends have answered: the version is agreed and the probes begin, or the port goes down. -/
def State.settleVersion (s : State) (p : LinkId) : State :=
  let x := s.opt.port p
  match x.formed, x.ack with
  | some v, some w => if v = w && v ≠ 0 then (s.updPort p fun x => { x with peerv := v }).measure p 64 else s.portDown p 3
  | _, _ => s

/-- Whether port `p` is in training's exchanges: frames pass, and it does not carry traffic yet. -/
def OptPort.training (x : OptPort) : Bool := x.linked && !x.up && x.retrain.isNone

/-- R386, R388: a peer's HELLO: compared with the Atlas, a version formed and answered; outside training it is taken and changes nothing. With
none received nothing happens. -/
def execHello (p : LinkId) (s : State) : Out :=
  let x := s.opt.port p
  if !s.hubOn || !x.linked then .next s
  else
    match s.takePkt p (· == 0x30) with
    | none => .next s
    | some (k, s1) =>
      let h := k.head.toNat
      if !x.training then .next s1
      else if bits h 80 32 ≠ s.opt.chainid.toNat || bits h 112 16 ≠ x.cfg.peerMod.toNat || bits h 128 2 ≠ x.cfg.peerRole.toNat
          || bits h 130 3 ≠ x.cfg.peerPort.toNat then .next (s1.portDown p 4)
      else
        let v := min 0x32 (bits h 64 8)
        let a := if 0x30 ≤ v && bits h 72 8 ≤ v then v else 0
        let s2 := s1.updPort p fun x =>
          { x with formed := some (BitVec.ofNat 8 a), peermod := BitVec.ofNat 16 (bits h 112 16),
                   peerport := BitVec.ofNat 3 (bits h 130 3) }
        .next ((s2.optSend p 0 { head := s.peerHeader p 0x31 (a * 2 ^ 64), data := [] }).settleVersion p)

/-- R386, R388: a peer's HELLO_ACK; outside training it is taken and changes nothing. With none received nothing happens. -/
def execHelloAck (p : LinkId) (s : State) : Out :=
  if !s.hubOn || !(s.opt.port p).linked then .next s
  else
    match s.takePkt p (· == 0x31) with
    | none => .next s
    | some (k, s1) =>
      .next (if !(s.opt.port p).training then s1 else (s1.updPort p fun x => { x with ack := some (BitVec.ofNat 8 (bits k.head.toNat 64 8)) }).settleVersion p)

/-- R389: a PROBE, stamped on its arrival, is answered; the reply takes T3 as it leaves. With none received nothing happens. -/
def execProbe (p : LinkId) (s : State) : Out :=
  if !s.hubOn || !(s.opt.port p).linked then .next s
  else
    match s.takePkt p (· == 0x40) with
    | none => .next s
    | some (k, s1) =>
      let h := k.head.toNat
      .next (s1.optSend p 0
        { head := s.peerHeader p 0x41 (bits h 128 64 * 2 ^ 128 + k.at'.toNat * 2 ^ 192 + bits h 320 16 * 2 ^ 320), data := [] })

/-- Insert into an ascending list. -/
def insInt (v : Int) : List Int → List Int
  | [] => [v]
  | x :: rest => if v ≤ x then v :: x :: rest else x :: insInt v rest

/-- R370: the entry that a measurement gives. -/
def Meas.entry (m : Meas) (x : OptPort) (peerSet valid : Bool) (hc : Nat) : Eph :=
  let offs := (m.got.map fun e => e.2.1).foldl (fun l v => insInt v l) []
  let lo := offs.headD 0
  let hi := offs.getLastD 0
  let rtts := m.got.map fun e => e.2.2
  let asym := if x.cfg.asym = 0 then 8 else x.cfg.asym
  { offset := BitVec.ofInt 64 (offs.getD (m.total / 2 - 1) 0), rtt := BitVec.ofNat 32 (rtts.foldl min (rtts.headD 0)),
    bound := BitVec.ofNat 32 (asym + 2 + ((hi - lo + 1) / 2).toNat), peer := x.peermod, valid := valid, peerset := peerSet,
    samples := BitVec.ofNat 8 m.total, at' := hc }

/-- R370, R371, R389: a PROBE_REPLY completes an exchange; the last one writes the Ephemeris entry, and in training the port comes
up. A reply to a probe that has been sent again since does not count. With no such reply nothing happens. -/
def execProbeReply (p : LinkId) (peerSet : Bool) (s : State) : Out :=
  let x := s.opt.port p
  if !s.hubOn || !x.linked then .next s
  else
    match s.takePkt p (· == 0x41) with
    | none => .next s
    | some (k, s1) =>
      let h := k.head.toNat
      let n := bits h 320 16
      match x.meas with
      | none => .next s1
      | some m =>
        if !m.sent.any (fun e => e.1 == n && e.2 == w64 (bits h 128 64)) || m.got.any fun e => e.1 == n then .next s1
        else
          let t4 := k.at'
          let t1 := w64 (bits h 128 64)
          let t2 := w64 (bits h 192 64)
          let t3 := w64 (bits h 256 64)
          let off := asr ((t2 - t1).toInt - (t4 - t3).toInt) 1
          let rtt := ((t4 - t1).toInt - (t3 - t2).toInt).toNat
          let m1 := { m with got := m.got ++ [(n, off, rtt)] }
          if m1.got.length < m.total then
            .next ((s1.updPort p fun x => { x with meas := some m1 }).sendProbe p m1.got.length)
          else
            let e := m1.entry x peerSet (!x.up || (s.opt.eph.get .reset p.toNat).valid) s.clk.hc
            let s2 := s1.updPort p fun x => { x with meas := none, up := true }
            .next { s2 with opt := { s2.opt with eph := s2.opt.eph.set p.toNat e } }

/-- R371: once per second a port that is up measures again with 8 exchanges. Before that nothing happens. -/
def execEphemerisRepeat (p : LinkId) (s : State) : Out :=
  let x := s.opt.port p
  if s.hubOn && x.up && x.retrain.isNone && x.meas.isNone
      && (s.opt.eph.get .reset p.toNat).at' + 1000 * hcPerMs ≤ s.clk.hc then .next (s.measure p 8)
  else .next s

/-! Frames (R382 to R386). -/

/-- R385: the first `n` flits of class `c` leave its run. -/
def OptPort.dropPart (x : OptPort) (c n : Nat) : OptPort :=
  { x with cls := x.cls.upd .reset c fun k =>
      { k with part := k.part.drop n, hurt := (k.hurt.filter fun e => n ≤ e.1).map fun e => (e.1 - n, e.2) } }

/-- R442, R443, R444: the record of a flit with an error that the flit code cannot correct, of the packet with header `h`: it names the command of an
orbit packet's receiving cell, and without a sideband every command (log 78). -/
def State.spoiltRec (s : State) (p : LinkId) (h : FlitBits) (known : Bool) : State :=
  let k := bits h.toNat 0 8
  let cmd := if known && (k = 1 || k = 2) then (s.cell (BitVec.ofNat 8 (bits h.toNat 16 8))).run.map Running.cmd else none
  s.raiseHub mechFlit (if !known then actAll else if cmd.isSome then actCommand else actRecord) 2 0xB p.toNat 0 0 cmd

/-- R385, R386, R444: take whole packets of class `c` off its run of flits; a packet of an unknown KIND is discarded and counted, and one with a
spoilt flit is lost, with a record. A control packet frees its buffer on arrival. -/
def State.assemble (s : State) (p : LinkId) (c : Nat) : Nat → State
  | 0 => s
  | n + 1 =>
    match ((s.opt.port p).klass c).part with
    | [] => s
    | h :: rest =>
      let d := (dataFlits h.toNat).getD 0
      if rest.length < d then s
      else
        let lost := ((s.opt.port p).klass c).hurt.filter fun e => e.1 < d + 1
        let s1 := s.updPort p fun x => x.dropPart c (d + 1)
        if !lost.isEmpty then
          (lost.foldl (fun s e => s.spoiltRec p h e.2) (s1.updPort p fun x => x.free c (d + 1))).assemble p c n
        else if (dataFlits h.toNat).isNone then ((s1.badPkt p).updPort p fun x => x.free c 1).assemble p c n
        else
          let k : OptPkt := { head := h, data := rest.take d, cls := optClassOf c, at' := s.time.track }
          (s1.updPort p fun x =>
            let y := { x with rx := x.rx ++ [k] }
            if c = 0 then y.free 0 k.flits.length else y).assemble p c n

/-- R384: drop the frames that FACK covers. -/
def OptPort.acked (x : OptPort) (fack : BitVec 12) (hc : Nat) : OptPort :=
  match x.replay with
  | [] => x
  | f :: _ =>
    let d := (fack - f.fseq).toNat
    if d < x.replay.length then { x with replay := x.replay.drop (d + 1), fackAt := hc } else x

/-- R384: send every unacknowledged frame again, in order, with current control fields. -/
def State.replay (s : State) (p : LinkId) : State :=
  let x := s.opt.port p
  if x.replay.isEmpty then s
  else
    let r := x.replay.foldl (fun a f => (a.1.turn, a.2 ++ [a.1.stamp f])) (x, ([] : List OutFrame))
    (s.updPort p fun _ =>
      { r.1 with replays := BitVec.ofNat 16 (satAdd 0xFFFF r.1.replays.toNat 1) }).frames p r.2

/-- R383, R482: a frame leaves in answer, idle if nothing else goes, as in a frozen module. -/
def State.answerFrame (s : State) (p : LinkId) : State :=
  let s1 := s.pump p
  let x := s1.opt.port p
  if s1.opt.sent.length ≠ s.opt.sent.length || !x.sends then s1
  else
    let e := x.emit [] s.clk.hc
    (s1.updPort p fun _ => e.1).frames p [e.2]

/-- R380, R390: symbols corrected and codewords not corrected, the latter also in the running 1 ms interval. -/
def OptPort.countErrors (x : OptPort) (csym ucw hc : Nat) : OptPort :=
  let fresh := x.ucwFrom + hcPerMs ≤ hc
  { x with csym := BitVec.ofNat 16 (satAdd 0xFFFF x.csym.toNat csym), ucw := BitVec.ofNat 16 (satAdd 0xFFFF x.ucw.toNat ucw)
           ucwRun := (if fresh then 0 else x.ucwRun) + ucw, ucwFrom := if fresh then hc else x.ucwFrom }

/-! Retraining (R380). -/

/-- R380: a reason to retrain holds on a port that is up: its traffic is held. Otherwise nothing happens. -/
def execRetrain (p : LinkId) (why : RetrainWhy) (s : State) : Out :=
  let x := s.opt.port p
  let holds := match why with
    | .lightLoss => true
    | .codewords => decide (16 ≤ x.ucwRun)
    | .fackTimeout => !x.replay.isEmpty && !s.clk.frozen && decide (x.fackAt + 36000 ≤ s.clk.hc)
  if s.hubOn && x.up && x.retrain.isNone && holds then
    .next (s.updPort p fun x =>
      { x with retrain := some s.clk.hc, retrains := BitVec.ofNat 8 (satAdd 0xFF x.retrains.toNat 1), ucwRun := 0 })
  else .next s

/-- R375: the other port of a port's engine. -/
def mateLink (p : LinkId) : LinkId := BitVec.ofNat 3 (if p.toNat % 2 = 0 then p.toNat + 1 else p.toNat - 1)

/-- R378, R380: spares that port `p` may take in a retrain: those of its engine that do not serve the other port. -/
def Optics.freeSpares (o : Optics) (p : LinkId) : Nat := o.spares.get 4 (p.toNat / 2) - (o.port (mateLink p)).spares.toNat

/-- R371, R380, R389: after a retrain a measurement of 8 exchanges runs; one that the retrain broke off goes on, and its probe is sent again
with the same number. -/
def State.measureAgain (s : State) (p : LinkId) : State :=
  match (s.opt.port p).meas with
  | some m => s.sendProbe p m.got.length
  | none => s.measure p 8

/-- R380: a retrain ends: the port goes down, or it replays from FACK + 1 and measures again. With none running nothing
happens. -/
def execRetrainComplete (p : LinkId) (res : LaneResult) (s : State) : Out :=
  let x := s.opt.port p
  if !s.hubOn || x.retrain.isNone then .next s
  else
    let n := min (16 - laneCount res.working) (s.opt.freeSpares p)
    let w := widthOf (laneCount res.working + n)
    if w = 0 then .next (s.portDown p 2)
    else if res.otherFailure || !res.light then .next (s.portDown p 5)
    else
      let s1 := s.updPort p fun x =>
        { x with retrain := none, width := if w < x.width.toNat then BitVec.ofNat 2 w else x.width, lanes := res.working,
                 spares := BitVec.ofNat 3 n, fackAt := s.clk.hc }
      .next ((s1.replay p).measureAgain p)

/-! Load curves (R380, R418). -/

/-- R380: every 1 ms each port takes the laser bias and equaliser offset of its engine's curve; `temps` are the engines' temperatures
in °C. Before the next 1 ms nothing happens. -/
def execOpticalLoadCurve (temps : List Int) (mv : Nat) (s : State) : Out :=
  if !s.hubOn || s.clk.hc < s.gov.optAt + hcPerMs then .next s
  else
    let s1 := (List.range 8).foldl (fun s p => s.curvePort temps mv p) s
    .next { s1 with gov := { s1.gov with optAt := s.clk.hc } }

/-! Orbit packets (R396). -/

/-- R396, R155: whether an orbit packet that arrives at port `p` may be delivered: from the peer's module, and the cell's orbit runs
over that port; a vector packet of the return lap comes from the successor. -/
def State.orbitOk (s : State) (p : LinkId) (k : OrbitPkt) : Bool :=
  let o := (s.cell k.dstg).arr.orbit
  let back := k.rows == 0 && k.rg == 1
  k.srcMod == (s.opt.port p).peermod && (if back then o.nextX && o.oport == p else o.prevX && o.iport == p)

/-- R396: the oldest orbit packet received at port `p` is checked and goes to its cell, or is discarded and counted. With none
received, or while the module is frozen, nothing happens. -/
def execOpticalOrbitPacket (p : LinkId) (s : State) : Out :=
  if !s.dispOn then .next s
  else
    match s.takePkt p (fun k => k == 1 || k == 2) with
    | none => .next s
    | some (k, s1) =>
      let o := k.orbit
      .next (if s.orbitOk p o then { s1 with orbit := s1.orbit ++ [o] } else s1.badPkt p)

end Sys2Proof.Machine
end

