-- ==== Sys2Proof/Machine/Page.lean ====
section
/-! DEFINITION. The page service (R392, R393, R397 to R405): posts, the packets of GET and PUT, forwarding, and the time limit. -/

namespace Sys2Proof.Machine

/-! Forwarding (R393). -/

/-- R393: hand a page packet on toward its module, with HOPS incremented, or discard and count it at the port it came by. -/
def State.forward (s : State) (p : LinkId) (k : OptPkt) : State :=
  let h := k.head.toNat
  let hops := bits h 56 8
  match s.route (bits h 32 16) with
  | some q =>
    if !(s.opt.port q).up || 16 ≤ hops then s.badPkt p
    else s.optSend q (clsNat k.cls) { k with head := flitOf (h + 2 ^ 56) }
  | none => s.badPkt p

/-- R393: take the oldest packet of a KIND at port `p` for this module; one for another module is forwarded. -/
def State.pageTake (s : State) (p : LinkId) (kind : Nat) (here : State → OptPkt → State) : State :=
  if !s.dispOn then s
  else
    match s.takePkt p (· == kind) with
    | none => s
    | some (k, s1) => if bits k.head.toNat 32 16 = s.opt.modnum.toNat then here s1 k else s1.forward p k

/-! Descriptors (R399). -/

/-- R399: own scratch or HBM of the module: the place of a 64 KiB buffer of cell `g`. -/
def State.bufferPlace (s : State) (g : CellId) (a : Nat) : Option Place :=
  if a % 64 ≠ 0 then none
  else
    match place s.hbmBytes g a, place s.hbmBytes g (a + 0xFFFF) with
    | .slice h o, .slice h' _ => if h = g && h' = g then some (.slice h o) else none
    | .hbm o, .hbm _ => some (.hbm o)
    | _, _ => none

/-- R399: whether a descriptor has a reserved OP, CLASS or bit. -/
def pageFormatBad (w : List Nat) : Bool :=
  let w0 := w.getD 0 0
  let op := bits w0 0 4
  !(op == 1 || op == 2) || !(bits w0 4 2 == 1 || bits w0 4 2 == 2) || (op == 1 && bit w0 6) || bits w0 7 9 != 0
    || bits (w.getD 1 0) 52 12 != 0 || w.getD 5 0 != 0 || w.getD 6 0 != 0 || w.getD 7 0 != 0

/-- R399: the doublewords of a posted descriptor, if it lies in the poster's own slice, aligned. -/
def State.postDesc (s : State) (x : PgPost) : Option (Nat × List Nat) :=
  match place s.hbmBytes x.cell x.addr with
  | .slice h o =>
    if h = x.cell && x.addr % 64 = 0 && !s.cellDown h then
      some (o, (List.range 8).map fun i => (s.cell h).slice.readN (o + 8 * i) 8)
    else none
  | _ => none

/-- R399: the next REQID not outstanding. -/
def Optics.freeReq (o : Optics) : Nat → BitVec 16 → BitVec 16
  | 0, r => r
  | n + 1, r => if o.ops.any fun x => x.reqid == r then o.freeReq n (r + 1) else r

/-- R399, R402: the result with which a post ends at once, 0 if it goes on. `outstanding` are the poster's operations. -/
def State.postResult (s : State) (x : PgPost) (w : List Nat) (off : Nat) : Nat :=
  let w0 := w.getD 0 0
  if 8 ≤ (s.opt.ops.filter fun o => o.cell == x.cell).length then 1
  else if (s.cell x.cell).slice.anyBad sramUnit off 64 then 6
  else if pageFormatBad w then 8
  else if !(s.opt.role == 1 || s.opt.role == 2) then 4
  else if (s.bufferPlace x.cell (bits (w.getD 1 0) 0 52)).isNone then 2
  else
    match s.route (bits w0 16 16) with
    | none => 3
    | some q => if (s.opt.port q).up then 0 else 7

/-- R401: the parts of a PUT. -/
def State.putParts (s : State) (req : Nat) (w : List Nat) (bs : List Byte) : List OptPkt :=
  let w0 := w.getD 0 0
  (List.range 16).map fun q =>
    let last := q = 15 && bit w0 6
    let rest := req * 2 ^ 64 + q * 2 ^ 80 + b2n last * 2 ^ 84 + bits w0 32 32 * 2 ^ 96
      + (if last then w.getD 2 0 * 2 ^ 128 + w.getD 3 0 * 2 ^ 192 else 0)
    { head := optHeader 0x22 s.opt.modnum.toNat (bits w0 16 16) (bits w0 4 2) 0 rest, data := flitsOf (bs.drop (0x1000 * q)) 64 }

/-- R399 to R401: a post whose descriptor passed: it takes a REQID, and its packets go out. -/
def State.startPage (s : State) (x : PgPost) (w : List Nat) (off : Nat) : State :=
  let w0 := w.getD 0 0
  let req := s.opt.freeReq (s.opt.ops.length + 1) s.opt.nextReq
  let o : PageOp :=
    { reqid := req, cell := x.cell, desc := off, put := bits w0 0 4 = 2, cls := BitVec.ofNat 2 (bits w0 4 2),
      dstmod := BitVec.ofNat 16 (bits w0 16 16), page := BitVec.ofNat 32 (bits w0 32 32), local' := bits (w.getD 1 0) 0 52,
      posted := x.at' }
  let s1 := { s with opt := { s.opt with ops := s.opt.ops ++ [o], nextReq := req + 1 } }
  let port := (s.route o.dstmod.toNat).getD 0
  if o.put then
    let pl := s.bufferPlace x.cell o.local'
    let s2 := match pl with | some pl => s1.pageMet pl 0x10000 | none => s1
    match pl.bind fun pl => s.pageRead pl 0x10000 with
    | none => s2.pageStatus o 6
    | some bs => (s.putParts req.toNat w bs).foldl (fun s k => s.optSend port o.cls.toNat k) s2
  else
    s1.optSend port o.cls.toNat
      { head := optHeader 0x20 s.opt.modnum.toNat o.dstmod.toNat o.cls.toNat 0 (req.toNat * 2 ^ 64 + o.page.toNat * 2 ^ 96),
        data := [] }

/-- R399, R402: the hub reads the oldest post, if its OP is one that `row` takes. A post whose descriptor does not lie in the poster's
own slice, aligned, has no STATUS to write and is dropped. -/
def State.readPost (s : State) (row : Nat → Bool) : State :=
  if !s.dispOn then s
  else
    match s.opt.posts with
    | [] => s
    | x :: rest =>
      let s1 := { s with opt := { s.opt with posts := rest } }
      match s.postDesc x with
      | none => if row 1 then s1 else s
      | some (off, w) =>
        if !row (bits (w.getD 0 0) 0 4) then s
        else
          let r := s.postResult x w off
          if r = 0 then s1.startPage x w off else s1.writeStatus x.cell off r

/-- R400: the oldest post, a GET; one of reserved OP also ends here. -/
def execGet (s : State) : Out := .next (s.readPost fun op => op != 2)

/-- R401: the oldest post, a PUT. -/
def execPut (s : State) : Out := .next (s.readPost fun op => op == 2)

/-! Packets. -/

/-- R401, R402: whether the page engine has no room for another operation: 64 in its queue, or, for a PUT, its 8 page buffers taken. -/
def Optics.full (o : Optics) (put : Bool) : Bool :=
  64 ≤ o.admitted.length || (put && 8 ≤ (o.admitted.filter fun b => b.put).length)

/-- R403: the page engine admits an operation with header `h` that came by port `p`, and performs what can be performed. -/
def State.admitPage (s : State) (p : LinkId) (put : Bool) (k : OptPkt) : State :=
  let h := k.head.toNat
  let b : PageServe :=
    { put := put, port := p, srcmod := BitVec.ofNat 16 (bits h 16 16), reqid := BitVec.ofNat 16 (bits h 64 16),
      page := BitVec.ofNat 32 (bits h 96 32), head := k.head, parts := if put then [(bits h 80 4, k.data)] else [] }
  State.serveAll { s with opt := { s.opt with admitted := s.opt.admitted ++ [b] } }

/-- R392, R400, R402, R403: a PG_GET reaches its target, or is forwarded. With none received nothing happens. -/
def execPgGet (p : LinkId) (s : State) : Out :=
  .next (s.pageTake p 0x20 fun s k =>
    let h := k.head.toNat
    if s.opt.role ≠ 3 then s.pageAck p h 4
    else if s.opt.count.toNat ≤ bits h 96 32 then s.pageAck p h 5
    else if s.opt.full false then s.pageAck p h 1
    else s.admitPage p false k)

/-- R272, R400: a PG_DATA part is written to LOCAL; STATUS follows part 15, or a part that meets a fenced pseudo-channel (log 64). Of no
outstanding GET, it is discarded and counted. -/
def execPgData (p : LinkId) (s : State) : Out :=
  .next (s.pageTake p 0x21 fun s k =>
    let h := k.head.toNat
    match s.opt.ops.find? fun o => o.reqid.toNat == bits h 64 16 && !o.put with
    | none => s.badPkt p
    | some o =>
      let q := bits h 80 4
      let pl : Place := match s.bufferPlace o.cell o.local' with
        | some (.slice g a) => .slice g (a + 0x1000 * q)
        | some (.hbm a) => .hbm (a + 0x1000 * q)
        | _ => .hole
      let s1 := s.pageWrite pl (bytesOf k.data)
      if s.pageRefused pl 0x1000 then s1.pageStatus o 6 else if q = 15 then s1.pageStatus o 0 else s1)

/-- R401: whether operation `b` is the PUT of header `h`. -/
def PageServe.ofPut (b : PageServe) (h : Nat) : Bool := b.put && b.srcmod.toNat == bits h 16 16 && b.reqid.toNat == bits h 64 16

/-- R401: drop a PUT: its buffer goes, and its later parts are discarded. -/
def State.refusePut (s : State) (p : LinkId) (h result : Nat) : State :=
  let o := s.opt
  let drop := if bits h 80 4 = 15 then o.dropped else o.dropped ++ [(BitVec.ofNat 16 (bits h 16 16), BitVec.ofNat 16 (bits h 64 16))]
  (State.pageAck { s with opt := { o with dropped := drop, admitted := o.admitted.filter fun b => !b.ofPut h } } p h result).serveAll

/-- R392, R401, R403: a PG_PUT part is buffered, part 0 with the operation's admission; with all parts present the page is written in its turn. A
refused PUT's parts are discarded, and a part of no PUT is counted too. -/
def execPgPut (p : LinkId) (s : State) : Out :=
  .next (s.pageTake p 0x22 fun s k =>
    let h := k.head.toNat
    let o := s.opt
    let q := bits h 80 4
    let key : BitVec 16 × BitVec 16 := (BitVec.ofNat 16 (bits h 16 16), BitVec.ofNat 16 (bits h 64 16))
    if o.dropped.contains key then
      (if q = 15 then { s with opt := { o with dropped := o.dropped.filter fun x => x != key } } else s)
    else if o.role ≠ 3 then s.refusePut p h 4
    else if o.count.toNat ≤ bits h 96 32 then s.refusePut p h 5
    else if !(o.admitted.any fun b => b.ofPut h) then
      (if q ≠ 0 then s.badPkt p else if o.full true then s.refusePut p h 1 else s.admitPage p true k)
    else if bit h 84 && (s.notifyPlace (bits h 128 64)).isNone then s.refusePut p h 2
    else
      let add (b : PageServe) : PageServe := if b.ofPut h then { b with head := k.head, parts := b.parts.set q k.data } else b
      State.serveAll { s with opt := { o with admitted := o.admitted.map add } })

/-- R402: a PG_ACK brings an operation's result. Of no outstanding operation, it is discarded and counted. -/
def execPgAck (p : LinkId) (s : State) : Out :=
  .next (s.pageTake p 0x23 fun s k =>
    let h := k.head.toNat
    match s.opt.ops.find? fun o => o.reqid.toNat == bits h 64 16 with
    | none => s.badPkt p
    | some o => s.pageStatus o (bits h 88 8))

/-- R402: no answer within 1 ms of the post: TIMEOUT. Before that nothing happens. -/
def execPageTimeout (reqid : BitVec 16) (s : State) : Out :=
  match s.opt.ops.find? fun o => o.reqid == reqid with
  | none => .next s
  | some o => if s.dispOn && o.posted + hcPerMs ≤ s.clk.hc then .next (s.pageStatus o 9) else .next s

end Sys2Proof.Machine
end

