-- ==== Sys2Proof/Machine/Flash.lean ====
section
/-! DEFINITION. The flash store (R407 to R414, R419 to R422): records, the layout of an Atlas, and the checks of the boot ROM. -/

namespace Sys2Proof.Machine

/-- Unit of the flash store in which a read can fail; the manual names none (log 5). -/
def flashUnit : Nat := 4096

/-- R407: flash offset of Atlas slot 0 or 1. -/
def slotBase (slot : Bool) : Nat := if slot then 0x10001000000 else 0x1000000

/-- R407: flash offset of a record area. -/
def areaBase (copy : Bool) : Nat := if copy then 0x10000000000 else 0

/-- R408: where a record lies in its area, its length, where its GEN and its CRC lie. -/
structure RecAt where
  off : Nat
  len : Nat
  gen : Nat
  crc : Nat
deriving DecidableEq, Repr

/-- R408: the boot record. Its CRC is DW7[31:0]. -/
def bootRec : RecAt := { off := 0, len := 64, gen := 8, crc := 56 }

/-- R408: the health list. -/
def healthRec : RecAt := { off := 0x1000, len := 320, gen := 256, crc := 316 }

/-- R408: the identity record. -/
def identityRec : RecAt := { off := 0x2000, len := 64, gen := 36, crc := 60 }

/-- A number in bytes. -/
def fieldOf (bs : List Byte) (a n : Nat) : Nat := leNat ((bs.drop a).take n)

/-- R408: whether a record's CRC is correct. -/
def recGood (r : RecAt) (bs : List Byte) : Bool := crc32c (bs.take r.crc) == fieldOf bs r.crc 4

/-- One copy of a record, if it is correct. -/
def Mem.recCopy (m : Mem) (r : RecAt) (copy : Bool) : Option (List Byte) :=
  let a := areaBase copy + r.off
  if m.anyBad flashUnit a r.len then none
  else let bs := m.readBytes a r.len; if recGood r bs then some bs else none

/-- R409: the copy in use, and its bytes. -/
def Mem.recRead (m : Mem) (r : RecAt) : Option (Bool × List Byte) :=
  match m.recCopy r false, m.recCopy r true with
  | some a, some b => if fieldOf a r.gen 4 < fieldOf b r.gen 4 then some (true, b) else some (false, a)
  | some a, none => some (false, a)
  | none, some b => some (true, b)
  | none, none => none

/-- Replace bytes of a list. -/
def patch (bs : List Byte) (a : Nat) (new : List Byte) : List Byte := bs.take a ++ new ++ bs.drop (a + new.length)

/-- R409: write a record: GEN plus 1, into the copy not in use. `body` has the record's length. -/
def Mem.recWrite (m : Mem) (r : RecAt) (body : List Byte) : Mem :=
  let old := m.recRead r
  let gen := match old with | some (_, bs) => fieldOf bs r.gen 4 + 1 | none => 1
  let copy := match old with | some (c, _) => !c | none => false
  let b1 := patch body r.gen (leBytes gen 4)
  m.store flashUnit (areaBase copy + r.off) (patch b1 r.crc (leBytes (crc32c (b1.take r.crc)) 4))

/-- R408, R409: ACTIVE and BOOTS. -/
def Mem.bootRead (m : Mem) : Bool × Nat :=
  match m.recRead bootRec with
  | some (_, bs) => (bit (fieldOf bs 0 8) 32, fieldOf bs 12 4)
  | none => (false, 0)

/-- R408: write the boot record. -/
def Mem.bootWrite (m : Mem) (active : Bool) (boots : Nat) : Mem :=
  m.recWrite bootRec (leBytes (0x43455242 + b2n active * 2 ^ 32 + boots % 2 ^ 32 * 2 ^ 96) 64)

/-- R408, R409: the health list's 256 bytes. -/
def Mem.healthRead (m : Mem) : List Byte :=
  match m.recRead healthRec with
  | some (_, bs) => bs.take 256
  | none => List.replicate 256 0

/-- R408: write the health list. -/
def Mem.healthWrite (m : Mem) (bs : List Byte) : Mem := m.recWrite healthRec (bs ++ List.replicate 64 0)

/-! The Atlas (R411, R412). -/

/-- R411: a directory entry. `resv` says that a reserved bit is set. -/
structure Sect where
  ix : Nat
  type : Nat
  dkind : Nat
  dsel : Nat
  foff : Nat
  len : Nat
  dest : Nat
  hash : BitVec 256
  resv : Bool
  raw : List Byte
deriving DecidableEq, Repr

/-- R411: read a directory entry. -/
def sectOf (ix : Nat) (raw : List Byte) : Sect :=
  let w0 := fieldOf raw 0 8
  { ix := ix, type := bits w0 0 16, dkind := bits w0 16 2, dsel := bits w0 24 8, foff := fieldOf raw 8 8, len := fieldOf raw 16 8,
    dest := fieldOf raw 24 8, hash := BitVec.ofNat 256 (fieldOf raw 32 32), resv := bits w0 18 6 != 0 || bits w0 32 32 != 0, raw := raw }

/-- `n` bytes of a slot. -/
def Mem.slotBytes (m : Mem) (slot : Bool) (a n : Nat) : List Byte := m.readBytes (slotBase slot + a) n

/-- Whether a read of a slot meets a flash error (R407). -/
def Mem.slotBad (m : Mem) (slot : Bool) (a n : Nat) : Bool := m.anyBad flashUnit (slotBase slot + a) n

/-- R411: doubleword `i` of the header. -/
def Mem.atlasDw (m : Mem) (slot : Bool) (i : Nat) : Nat := leNat (m.slotBytes slot (8 * i) 8)

/-- R411: SVN. -/
def Mem.atlasSvn (m : Mem) (slot : Bool) : Nat := bits (m.atlasDw slot 0) 40 6

/-- R411: NSECT. -/
def Mem.nsect (m : Mem) (slot : Bool) : Nat := bits (m.atlasDw slot 1) 0 11

/-- R411: RPK as stored. -/
def Mem.rpk (m : Mem) (slot : Bool) : List Byte := m.slotBytes slot 64 32

/-- R411: CPK as stored. -/
def Mem.cpk (m : Mem) (slot : Bool) : List Byte := m.slotBytes slot 96 32

/-- R411: the directory. -/
def Mem.sects (m : Mem) (slot : Bool) : List Sect :=
  (List.range (m.nsect slot)).map fun i => sectOf i (m.slotBytes slot (0x1000 + 64 * i) 64)

/-- The bytes of the directory. -/
def Mem.directory (m : Mem) (slot : Bool) : List Byte := m.slotBytes slot 0x1000 (64 * m.nsect slot)

/-- The section of a type. -/
def Mem.sectType (m : Mem) (slot : Bool) (t : Nat) : Option Sect := (m.sects slot).find? fun x => x.type == t

/-- R411: bytes of the Riral and of the customer signature. -/
def Mem.signature (m : Mem) (slot cust : Bool) : List Byte := m.slotBytes slot (if cust then 0x13000 else 0x11000) 7856

/-- R420: M_R. -/
def Mem.riralDigest (m : Mem) (slot : Bool) : BitVec 256 :=
  let e (t : Nat) : List Byte := match m.sectType slot t with | some x => x.raw | none => []
  sha256 (e 1 ++ e 2 ++ [BitVec.ofNat 8 (m.atlasSvn slot)])

/-- R420: M_C. -/
def Mem.customerDigest (m : Mem) (slot : Bool) : BitVec 256 :=
  sha256 (m.slotBytes slot 0 128 ++ m.directory slot ++ m.signature slot false)

/-- The content of a section. -/
def Mem.content (m : Mem) (slot : Bool) (x : Sect) : List Byte := m.slotBytes slot x.foff x.len

/-! The checks of the boot ROM (R421), each with the reason code of R429. -/

/-- R421: step 1. -/
def Mem.headerFail (m : Mem) (slot : Bool) : Option Nat :=
  let w0 := m.atlasDw slot 0
  if m.slotBad slot 0 128 || m.slotBad slot 0x1000 (64 * m.nsect slot) then some 0x01
  else if bits w0 0 32 ≠ 0x534C5441 || bits w0 32 8 ≠ 1 || bits w0 47 17 ≠ 0 || bits (m.atlasDw slot 1) 11 53 ≠ 0
      || (m.slotBytes slot 24 40).any (· != 0) then some 0x02
  else none

/-- R421: step 2. -/
def Mem.keyFail (m : Mem) (slot : Bool) (custKey : BitVec 256) : Option Nat :=
  if sha256 (m.rpk slot) ≠ Sys2Proof.Config.riralKeyHash then some 0x03
  else if (if custKey = 0 then m.cpk slot != m.rpk slot else sha256 (m.cpk slot) != custKey) then some 0x03
  else none

/-- R421: step 3, and step 4 with `cust`. -/
def Mem.sigFail (m : Mem) (slot cust : Bool) : Option Nat :=
  if m.slotBad slot (if cust then 0x13000 else 0x11000) 7856 then some 0x01
  else if cust then
    if slhVerify (m.cpk slot) (leBytes (m.customerDigest slot).toNat 32) (m.signature slot true) then none else some 0x05
  else if slhVerify (m.rpk slot) (leBytes (m.riralDigest slot).toNat 32) (m.signature slot false) then none
  else some 0x04

/-- The first of two failures. -/
def orFail {α : Type} (a b : Option α) : Option α := match a with | some x => some x | none => b

/-- R421: steps 1 to 5. -/
def Mem.atlasFail (m : Mem) (slot : Bool) (f : Fuses) : Option Nat :=
  orFail (m.headerFail slot) (orFail (m.keyFail slot f.custKey) (orFail (m.sigFail slot false) (orFail (m.sigFail slot true)
    (if m.atlasSvn slot < f.svn then some 0x06 else none))))

/-- R412: whether a section's DKIND, DSEL and LEN are what its type has. -/
def Sect.typeOk (x : Sect) : Bool :=
  let sel := if x.dkind = 1 then true else if x.dkind = 2 then x.dsel < 64 else x.dsel == 0
  let shape :=
    if x.type = 1 then x.dkind = 0 && x.len ≤ 0x4000000
    else if x.type = 2 then x.dkind = 3 && x.len ≤ 0x10000
    else if x.type = 3 || x.type = 4 then x.dkind = 0 && x.len == 4096
    else if x.type = 5 then x.dkind = 0 && 32 ≤ x.len && x.len ≤ 131072 && x.len % 32 == 0
    else if x.type = 6 then x.dkind = 0 && x.len == 20480
    else if x.type = 7 || x.type = 9 then x.dkind = 0 && x.len == 256
    else if x.type = 8 then x.dkind = 0 && x.len ≤ 0x10000
    else if x.type = 0xA then x.dkind = 0 && x.len == 4224
    else if 0x10 ≤ x.type && x.type ≤ 0x12 then x.dkind != 0
    else x.type = 0x13 && x.dkind == 0
  sel && shape

/-- R414: whether two sections share a byte of the slot. -/
def Sect.overlaps (x y : Sect) : Bool := x.foff < y.foff + y.len && y.foff < x.foff + x.len

/-- R414: whether a section alone breaks the rules of the directory. -/
def Sect.bad (x : Sect) (length : Nat) : Bool :=
  !x.typeOk || x.resv || length < x.foff + x.len || x.foff < 0x20000 || x.foff % 4096 != 0

/-- R414: the first section that breaks a rule of the directory, alone or with one before it. -/
def badSect (length : Nat) : List Sect → List Sect → Option Nat
  | _, [] => none
  | before, x :: rest =>
    let order := match before with | [] => true | y :: _ => decide (0xA < x.type) || decide (y.type < x.type)
    if x.bad length || !order || before.any (fun y => y.overlaps x) then some x.ix else badSect length (x :: before) rest

/-- R412, R414: the first section whose destination is refused, HBM's capacity aside: firmware has 0. -/
def badDest (fw : Nat) : List Sect → Option Nat
  | [] => none
  | x :: rest =>
    if ((x.type = 1 || x.type = 2) && x.dest != 0) || (x.type = 0x10 && (0x40000 < x.dest + x.len || (x.len != 0 && x.dest < fw)))
        || (x.type = 0x11 && 0x40000 < x.dest + x.len) || (x.type = 0x12 && 0xC000000 < x.dest + x.len) then some x.ix
    else badDest fw rest

/-- R421: step 6: reason and section. -/
def Mem.dirFail (m : Mem) (slot : Bool) : Option (Nat × Nat) :=
  let l := m.sects slot
  let length := m.atlasDw slot 2
  let fw := match m.sectType slot 2 with | some x => x.len | none => 0
  if l.length = 0 || 1024 < l.length || 0xFFFF000000 < length then some (0x07, 0)
  else
    match badSect length [] l with
    | some i => some (0x07, i)
    | none =>
      if !(List.range 7).all fun t => l.any fun x => x.type == t + 1 then some (0x07, 0)
      else (badDest fw l).map fun i => (0x10, i)

/-- R422: a section as it streams: an uncorrectable read, or a wrong hash. -/
def Mem.sectFail (m : Mem) (slot : Bool) (x : Sect) : Option Nat :=
  if m.slotBad slot x.foff x.len then some 0x01
  else if sha256 (m.content slot x) ≠ x.hash then some 0x08
  else none

/-- R422: the first of a list of sections that fails as it streams. -/
def Mem.streamFail (m : Mem) (slot : Bool) (l : List Sect) : Option (Nat × Nat) :=
  l.foldl (fun a x => orFail a ((m.sectFail slot x).map fun r => (r, x.ix))) none

/-- R407, R422: how many bytes of a section stream before the first that the flash cannot read. -/
def Mem.readable (m : Mem) (slot : Bool) (x : Sect) : Nat :=
  if m.slotBad slot x.foff x.len then m.firstBad flashUnit (slotBase slot + x.foff) x.len * flashUnit - (slotBase slot + x.foff) else x.len

/-- R430: bytes of sections. -/
def sectBytes (l : List Sect) : Nat := (l.map Sect.len).sum

/-- The image sections (R412). -/
def Mem.images (m : Mem) (slot : Bool) : List Sect := (m.sects slot).filter fun x => 0x10 ≤ x.type

end Sys2Proof.Machine
end

