-- ==== Sys2Proof/Machine/AtlasConfig.lean ====
section
/-! DEFINITION. The configuration sections of an Atlas (R412, R415 to R418, R494): their checks, and the registers they load. -/

namespace Sys2Proof.Machine

/-- The content of the section of a type; empty when it is absent. -/
def Mem.section' (m : Mem) (slot : Bool) (t : Nat) : List Byte :=
  match m.sectType slot t with | some x => m.content slot x | none => []

/-- Doubleword `i` of a section. -/
def dwAt (bs : List Byte) (i : Nat) : Nat := fieldOf bs (8 * i) 8

/-- Byte `i` of a section. -/
def byteAt (bs : List Byte) (i : Nat) : Nat := (bs.getD i 0).toNat

/-! CONFIG (R415). -/

/-- R415: whether CONFIG is refused. -/
def configBad (bs : List Byte) : Bool :=
  let w := dwAt bs
  bits (w 0) 2 14 != 0 || bits (w 2) 40 24 != 0 || bits (w 3) 41 23 != 0 || bits (w 4) 56 8 != 0
    || ((List.range 3).any fun i => w (5 + i) != 0) || ((List.range 8).any fun p => bits (w (8 + p)) 21 11 != 0)
    || ((bs.drop 128).any (· != 0)) || 255 < bits (w 0) 16 16 || (bits (w 0) 0 2 == 3 && bits (w 4) 24 24 == 0)

/-- R415: whether a port is marked used. -/
def portUsed (bs : List Byte) (p : Nat) : Bool := bit (dwAt bs 4) (48 + p)

/-- A field, or the value kept when it is 0. -/
def orKeep (v keep : Nat) : Nat := if v = 0 then keep else v

/-- R356, R357: the calibration word moves INC 64 hc later. -/
def TimeBase.calibrate (t : TimeBase) (osc hc : Nat) : TimeBase :=
  let c : TimeChange :=
    { due := hc + 64, add := 0, first := false, stepped := false, inc := none, move := (osc : Int) - (t.inc0.toNat : Int) }
  if osc = 0 then t else { t with inc0 := BitVec.ofNat 32 osc, changes := t.changes ++ [c] }

/-- R415: what CONFIG says of port `p`. -/
def portCfgOf (bs : List Byte) (p : Nat) : PortCfg :=
  let w := dwAt bs (8 + p)
  { used := portUsed bs p, peerRole := BitVec.ofNat 2 (bits w 19 2), peerPort := BitVec.ofNat 3 (bits w 16 3),
    peerMod := BitVec.ofNat 16 (bits w 0 16), asym := orKeep (bits w 32 32) 8 }

/-- R415: load CONFIG. -/
def State.loadConfig (s : State) (bs : List Byte) : State :=
  let w := dwAt bs
  let ports := (List.range 8).foldl (fun t p => Tbl.upd .reset t p fun (x : OptPort) =>
    { x with cfg := portCfgOf bs p, used := portUsed bs p }) s.opt.ports
  { s with
    time := { s.time.calibrate (bits (w 1) 0 32) s.clk.hc with
              steplim := BitVec.ofNat 32 (orKeep (bits (w 3) 0 32) s.time.steplim.toNat) }
    safe := { s.safe with wdogLimit := BitVec.ofNat 32 (orKeep (bits (w 1) 32 32) s.safe.wdogLimit.toNat) }
    hbm := { s.hbm with ceth := BitVec.ofNat 16 (orKeep (bits (w 2) 0 16) s.hbm.ceth.toNat)
                        ueth := BitVec.ofNat 8 (orKeep (bits (w 2) 16 8) s.hbm.ueth.toNat) }
    disp := { s.disp with downms := BitVec.ofNat 16 (orKeep (bits (w 2) 24 16) s.disp.downms.toNat) }
    opt := { s.opt with role := BitVec.ofNat 2 (bits (w 0) 0 2), modnum := BitVec.ofNat 16 (bits (w 0) 16 16)
                        chainid := BitVec.ofNat 32 (bits (w 0) 32 32), first := BitVec.ofNat 24 (bits (w 4) 0 24)
                        count := BitVec.ofNat 24 (bits (w 4) 24 24), ports := ports } }

/-! QUEUES (R416, R322). -/

/-- R416: whether QUEUES is refused. -/
def queuesBad (bs : List Byte) : Bool :=
  let w (q : Nat) : Nat := fieldOf bs (4 * q) 4
  ((List.range 1024).any fun q =>
    let o := bits (w q) 0 2
    let c := bits (w q) 16 16
    o == 3 || bits (w q) 2 2 == 3 || bits (w q) 4 12 != 0 || (if o = 2 then c != 0 else c == 0 || 1024 < c))
  || 131072 < ((List.range 1024).map fun q => bits (w q) 16 16).sum

/-- A class from its number. -/
def classOf (n : Nat) : Class := if n = 0 then .control else if n = 1 then .comet else .tide

/-- R416: load QUEUES. -/
def State.loadQueues (s : State) (bs : List Byte) : State :=
  { s with queues := (List.range 1024).map fun q =>
      let w := fieldOf bs (4 * q) 4
      let o : BitVec 2 := BitVec.ofNat 2 (bits w 0 2)
      (q, ({ Queue.reset with owner := o, home := o, cls := classOf (bits w 2 2), credits := bits w 16 16 } : Queue)) }

/-! DISPATCH (R334). -/

/-- R334: the entries of a dispatch table. -/
def dispatchOf (bs : List Byte) : List (List Word64) :=
  (List.range (bs.length / 32)).map fun k => (List.range 4).map fun i => w64 (fieldOf bs (32 * k + 8 * i) 8)

/-- R334: first byte after an entry's slot area. -/
def areaEnd (e : List Word64) : Nat := bits (hdrDw e 2) 0 28 + (bits (hdrDw e 2) 28 4 + 1) * entrySlot e

/-- R334: whether two entries of one group name areas that overlap without being equal. -/
def areasClash (a b : List Word64) : Bool :=
  entryGroup a == entryGroup b && entryGroup a != 0x7F && bits (hdrDw a 2) 0 36 != bits (hdrDw b 2) 0 36
    && bits (hdrDw a 2) 0 28 < areaEnd b && bits (hdrDw b 2) 0 28 < areaEnd a

/-- R334: whether DISPATCH is refused; `defined` says which groups exist. -/
def dispatchBad (bs : List Byte) (defined : Nat → Bool) : Bool :=
  let l := (dispatchOf bs).filter fun e => bit (hdrDw e 0) 0
  l.any fun e =>
    0xC000000 < areaEnd e || (entryGroup e != 0x7F && !defined (entryGroup e)) || !pushValid (w64 (bits (hdrDw e 1) 32 32))
      || l.any (areasClash e)

/-- R334: load DISPATCH. -/
def State.loadDispatch (s : State) (bs : List Byte) : State :=
  let l := dispatchOf bs
  { s with disp := { s.disp with len := l.length, table := (List.range l.length).map fun k => (k, l.getD k []) } }

/-! GROUPS (R417, R35). -/

/-- R417: whether group `n` is defined. -/
def groupDefined (bs : List Byte) (n : Nat) : Bool := bit (byteAt bs (320 * n + 32)) 0 && n < 64

/-- R417: the members of group `n`. -/
def groupMask (bs : List Byte) (n : Nat) : List CellId :=
  ((List.range 256).filter fun g => bit (byteAt bs (320 * n + g / 8)) (g % 8)).map fun g => BitVec.ofNat 8 g

/-- R417: the orbit order of group `n`. -/
def groupOrbit (bs : List Byte) (n : Nat) : List CellId :=
  (List.range (groupMask bs n).length).map fun i => BitVec.ofNat 8 (byteAt bs (320 * n + 64 + i))

/-- R35, R417: whether the entry of group `n` is refused. -/
def groupBad (bs : List Byte) (used : Nat → Bool) (n : Nat) : Bool :=
  let e := (bs.drop (320 * n)).take 320
  let m := groupMask bs n
  let o := groupOrbit bs n
  let nx := fieldOf e 36 4
  let px := fieldOf e 40 4
  if groupDefined bs n then
    m.isEmpty || !m.any (fun g => g.toNat == byteAt e 33) || !o.all (fun g => m.any (· == g)) || !m.all (fun g => o.any (· == g))
      || (bit nx 0 && !used (bits nx 1 3)) || (bit px 0 && !used (bits px 1 3))
      || (List.range n).any fun k => groupDefined bs k && m.any fun g => (groupMask bs k).any (· == g)
  else e.any (· != 0)

/-- R417: whether GROUPS is refused. -/
def groupsBad (bs : List Byte) (used : Nat → Bool) : Bool := (List.range 64).any (groupBad bs used)

/-- R116, R417: CELL_ORBIT of member `i` of an orbit order. -/
def orbitRegOf (o : List CellId) (nx px i : Nat) : OrbitReg :=
  let last := i + 1 = o.length
  { next := if last then BitVec.ofNat 8 (if bit nx 0 then bits nx 8 8 else 0) else o.getD (i + 1) 0
    nextV := !last || bit nx 0, nextX := last && bit nx 0, oport := if last && bit nx 0 then BitVec.ofNat 3 (bits nx 1 3) else 0
    prev := if i = 0 then BitVec.ofNat 8 (if bit px 0 then bits px 8 8 else 0) else o.getD (i - 1) 0
    prevV := i != 0 || bit px 0, prevX := i = 0 && bit px 0, iport := if i = 0 && bit px 0 then BitVec.ofNat 3 (bits px 1 3) else 0 }

/-- R417: load group `n`: its descriptor, and its members' CELL_ID and CELL_ORBIT. -/
def State.loadGroup (s : State) (bs : List Byte) (n : Nat) : State :=
  if !groupDefined bs n then s
  else
    let o := groupOrbit bs n
    let lead : CellId := BitVec.ofNat 8 (byteAt bs (320 * n + 33))
    let g : Group := { defined := true, formed := false, down := false, leader := lead, orbit := o }
    let s1 := { s with groups := s.groups.set n g }
    (List.range o.length).foldl (fun s i =>
      s.updCell (o.getD i 0) fun c =>
        { c with id := { c.id with group := BitVec.ofNat 7 n, leader := o.getD i 0 == lead }
                 arr := { c.arr with
                          orbit := orbitRegOf o (fieldOf bs (320 * n + 36) 4) (fieldOf bs (320 * n + 40) 4) i } }) s1

/-- R417: load GROUPS. -/
def State.loadGroups (s : State) (bs : List Byte) : State := (List.range 64).foldl (fun s n => s.loadGroup bs n) s

/-! INTERLEAVE, CURVES, FORWARD, UCODE. -/

/-- R266: whether INTERLEAVE is refused. -/
def interleaveBad (bs : List Byte) : Bool := !(List.range 256).all fun v => (bs.take 256).any fun b => b.toNat == v

/-- R418: the entries of the curve directory: KIND, INDEX, OFFSET and LEN. -/
def curveDir (bs : List Byte) : List (Nat × Nat × Nat × Nat) :=
  ((List.range 16).map fun i =>
    let w := dwAt bs (2 * i)
    (bits w 0 16, bits w 16 16, bits w 32 32, dwAt bs (2 * i + 1))).takeWhile fun e => e.1 != 0

/-- Whether a list holds a kind and index twice. -/
def curveTwice : List (Nat × Nat × Nat × Nat) → Bool
  | [] => false
  | e :: rest => rest.any (fun x => x.1 == e.1 && x.2.1 == e.2.1) || curveTwice rest

/-- R494: bytes of a governor curve table. -/
def govCurveLen : Nat := 10496

/-- R418, R494: whether CURVES is refused. -/
def curvesBad (bs : List Byte) : Bool :=
  let d := curveDir bs
  curveTwice d || d.any fun e => bs.length < e.2.2.1 + e.2.2.2 || (e.1 == 3 && e.2.2.2 != govCurveLen)

/-- R418: load CURVES. -/
def State.loadCurves (s : State) (bs : List Byte) : State :=
  (curveDir bs).foldl (fun s e =>
    let body := (bs.drop e.2.2.1).take e.2.2.2
    if e.1 = 1 then { s with gov := { s.gov with hbmCurves := s.gov.hbmCurves.set e.2.1 body } }
    else if e.1 = 2 then { s with gov := { s.gov with optCurves := s.gov.optCurves.set e.2.1 body } }
    else if e.1 = 3 then { s with gov := { s.gov with curve := some body } }
    else s) s

/-- R393, R412: load FORWARD. -/
def State.loadForward (s : State) (bs : List Byte) : State :=
  { s with opt := { s.opt with
      fwd := (List.range bs.length).map fun d =>
        (d, ({ port := BitVec.ofNat 3 (bits (byteAt bs d) 0 3), valid := bit (byteAt bs d) 3 } : Fwd)) } }

/-- R196: operations that exist. -/
def microOpOk (op : Nat) : Bool :=
  op ≤ 6 || (8 ≤ op && op ≤ 0xE) || (0x10 ≤ op && op ≤ 0x12) || (0x14 ≤ op && op ≤ 0x18) || (0x1C ≤ op && op ≤ 0x20)
    || (0x30 ≤ op && op ≤ 0x37)

/-- R195 to R197: whether micro-op `u` is refused; `fin` says that it lies in the final group. -/
def microBad (u : Nat) (fin : Bool) : Bool :=
  let op := bits u 56 6
  let dst := bits u 52 4
  let arch := dst == 8 || (12 ≤ dst && dst ≤ 14)
  !microOpOk op || bit u 62 || (bit u 63 != fin) || !(dst < 8 || arch) || (arch && !fin) || (0x30 ≤ op && !fin)
    || (0x34 ≤ op && dst != 0)

/-- Length of the run of FINAL micro-ops at the end of a list. -/
def finalRun (l : List Nat) : Nat := (l.reverse.takeWhile fun u => bit u 63).length

/-- R200: whether the entry word `w` over micro-ops `ops` is refused. -/
def udtBad (w : Nat) (op : Nat → Nat) : Bool :=
  let start := bits w 2 9
  let n := bits w 11 6 + 1
  let l := (List.range n).map fun i => op (start + i)
  let k := finalRun l
  bit w 0 && (511 < start + n - 1 || bits w 17 47 != 0 || k = 0 || 4 < k
    || ((List.range n).any fun i => microBad (l.getD i 0) (decide (n ≤ i + k)))
    || 1 < (l.filter fun u => 0x30 ≤ bits u 56 6).length)

/-- R200, R412: whether UCODE is refused. -/
def ucodeBad (bs : List Byte) : Bool := (List.range 16).any fun e => udtBad (dwAt bs e) fun i => dwAt bs (16 + i)

/-- R193, R412: the decode table and store that UCODE gives; without it every entry is undefined. -/
def ucodeOf (bs : List Byte) : Ucode :=
  if bs.isEmpty then .reset
  else { udt := (List.range 16).map fun e => (e, w64 (dwAt bs e))
         store := (List.range 512).map fun i => (i, w64 (dwAt bs (16 + i))), index := 0 }

/-! All of CONFIG (R423, PHASE 3). -/

/-- R415 to R418, R35, R200, R266, R322, R334: the reason for which a section's content is refused. -/
def Mem.contentFail (m : Mem) (slot : Bool) (t : Nat) : Option Nat :=
  let bs := m.section' slot t
  let used := portUsed (m.section' slot 3)
  if t = 3 then if configBad bs then some 0x09 else none
  else if t = 4 then if queuesBad bs then some 0x0A else none
  else if t = 5 then if dispatchBad bs (groupDefined (m.section' slot 6)) then some 0x0E else none
  else if t = 6 then if groupsBad bs used then some 0x0B else none
  else if t = 7 then if interleaveBad bs then some 0x0C else none
  else if t = 8 then if curvesBad bs then some 0x09 else none
  else if t = 0xA then if ucodeBad bs then some 0x0D else none
  else none

/-- R423: the first of sections 0x02 to 0x0A that fails as it is streamed or as it ends. -/
def Mem.configFail (m : Mem) (slot : Bool) : Option (Nat × Nat) :=
  ((m.sects slot).filter fun x => 2 ≤ x.type && x.type ≤ 0xA).foldl (fun a x =>
    orFail a ((orFail (m.sectFail slot x) (m.contentFail slot x.type)).map fun r => (r, x.ix))) none

/-- R423: load the registers. -/
def State.loadAtlas (s : State) (slot : Bool) : State :=
  let b := s.flash.section' slot
  let s1 := (((s.loadConfig (b 3)).loadQueues (b 4)).loadDispatch (b 5)).loadGroups (b 6)
  let s2 := { s1 with hbm := { s1.hbm with ilv := b 7 } }
  (s2.loadCurves (b 8)).loadForward (b 9)

end Sys2Proof.Machine
end

