-- ==== Sys2Proof/Machine/Boot.lean ====
section
/-! DEFINITION. Power and the start sequence (R254, R410, R421 to R431, R490, R491, R494): power-on and power-off, the phases, fallback
and restart, the health list. Each phase's command acts in its own phase only, and moves PHASE on when the phase ends. -/

namespace Sys2Proof.Machine

/-- R428, R489: everything but flash and fuses is lost; pins that are driven from outside, the queue of commands, the model's own
counter and what has left the module stay. -/
def State.powerCycle (s : State) (on : Bool) : State :=
  { State.reset with
    pending := s.pending, fresh := s.fresh, flash := s.flash, fuses := s.fuses
    clk := { Clock.reset with powered := on }
    ports := s.ports.map fun e => (e.1, ({ PciPort.reset with perst := e.2.perst } : PciPort))
    disp := { Disp.reset with out := s.disp.out }, opt := { Optics.reset with sent := s.opt.sent }
    pins := { Service.reset with aux := s.pins.aux, addr1 := s.pins.addr1, addr0 := s.pins.addr0 } }

/-- R427: a check has failed: once, the start begins again with the other slot; the second time it stops. -/
def State.bootFail (s : State) (f : Nat × Nat) : State :=
  if s.boot.fallback then { s with boot := { s.boot with phase := 15 } }
  else
    { s.powerCycle true with boot := { Boot.reset with fallback := true, reason := BitVec.ofNat 8 f.1, sect := BitVec.ofNat 10 f.2,
                                                       useSlot := some !s.boot.slot } }

/-- R426: restart with the same slot; what has failed in this power-on is kept. -/
def State.restartSame (s : State) : State :=
  { s.powerCycle true with boot := { Boot.reset with fallback := s.boot.fallback, reason := s.boot.reason, sect := s.boot.sect,
                                                     useSlot := some s.boot.slot } }

/-- Whether start stands in a phase, with no fence that stops it (R426). -/
def State.inPhase (s : State) (k : Nat) : Bool := s.hubOn && s.boot.phase == k && s.hbm.healthWait.isEmpty

/-- The phase moves on. -/
def State.toPhase (s : State) (k : Nat) : State := { s with boot := { s.boot with phase := k } }

/-- R430: section bytes have streamed. -/
def State.streamed (s : State) (n : Nat) : State := { s with boot := { s.boot with prog := s.boot.prog + w64 n } }

/-- R422, R423, R430: sections stream in their order: `put` takes the bytes that the flash can read, and BYTES counts them; then comes the hash, and
`more` says whether a whole section fails a check of its own. The first that fails ends it, with reason and section. -/
def State.streamSects (put : State → List Byte → Sect → State) (more : State → Sect → Option Nat) (s : State) :
    List Sect → State × Option (Nat × Nat)
  | [] => (s, none)
  | x :: rest =>
    let bs := (s.flash.content s.boot.slot x).take (s.flash.readable s.boot.slot x)
    let s1 := (put s bs x).streamed bs.length
    match orFail (s.flash.sectFail s.boot.slot x) (more s x) with
    | some r => (s1, some (r, x.ix))
    | none => s1.streamSects put more rest

/-- R490: the input rises above 38 V: the rails soft-start, and PHASE 0 begins. A module that is on stays as it is. -/
def execPowerOn (mv : Nat) (s : State) : Out :=
  .next (if !s.clk.powered && 38000 < mv then s.powerCycle true else s)

/-- R423, R485, R486: the hub leaves reset, which samples SCANEN, and PHASE 0: fuses are read, and links train from here on. With SCANEN high
the hub stays in this phase. -/
def execRom (scanen : Bool) (s : State) : Out :=
  if s.inPhase 0 && !s.pins.scanen then
    let b := { s.boot with fusedSvn := BitVec.ofNat 6 s.fuses.svn, custblank := s.fuses.custKey == 0,
                           phase := if scanen then 0 else 1 }
    .next { s with boot := b, pins := { s.pins with scanen := scanen } }
  else .next s

/-- R423, PHASE 1: the boot record is read, and header, directory and signatures are checked. -/
def execVerify (s : State) : Out :=
  if !s.inPhase 1 then .next s
  else
    let r := s.flash.bootRead
    let slot := s.boot.useSlot.getD r.1
    let s1 := { s with boot := { s.boot with slot := slot, boots := BitVec.ofNat 32 r.2,
                                             atlasSvn := BitVec.ofNat 6 (s.flash.atlasSvn slot) } }
    match orFail ((s.flash.atlasFail slot s.fuses).map fun x => (x, 0)) (s.flash.dirFail slot) with
    | some f => .next (s1.bootFail f)
    | none => .next (s1.toPhase 2)

/-- R412, R423, PHASE 2: HUB_FW is streamed into the hub's firmware memory, hashed and started. -/
def execHubfw (s : State) : Out :=
  if !s.inPhase 2 then .next s
  else
    let r := s.streamSects (fun s bs _ => { s with boot := { s.boot with fw := s.boot.fw.store sramUnit 0 bs } })
      (fun _ _ => none) ((s.flash.sects s.boot.slot).filter fun x => x.type == 1)
    match r.2 with
    | some f => .next (r.1.bootFail f)
    | none => .next { r.1 with boot := { r.1.boot with phase := 3, fwUp := true } }

/-- R423, PHASE 3: sections 0x02 to 0x0A are streamed, hashed and checked, and registers loaded. -/
def execConfig (s : State) : Out :=
  if !s.inPhase 3 then .next s
  else
    let r := s.streamSects (fun s _ _ => s) (fun s x => s.flash.contentFail s.boot.slot x.type)
      ((s.flash.sects s.boot.slot).filter fun x => 2 ≤ x.type && x.type ≤ 0xA)
    match r.2 with
    | some f => .next (r.1.bootFail f)
    | none => .next ((r.1.loadAtlas s.boot.slot).toPhase 4)

/-! TRAIN. -/

/-- R269: whether a group of lanes has more failures than spares. -/
def laneLost (x : LaneGroup) : Bool := x.spares < x.failed

/-- R262, R269: whether two pseudo-channels of a stack are those of one channel (log 59). -/
def sameChannel (a b : Nat) : Bool := a / 2 == b / 2

/-- R269: whether training maps pseudo-channel `p` out: its stack fails, a data byte group of its own or its channel's command/address lanes
cannot be repaired, or its centring fails. -/
def mapsOut (res : TrainResult) (p : Nat) : Bool :=
  (res.badStacks.any fun k => k.toNat == p / 32) || (res.dataLanes.any fun x => x.chan.toNat == p && laneLost x)
    || (res.caLanes.any fun x => sameChannel x.chan.toNat p && laneLost x) || res.badCentring.any fun c => c.toNat == p

/-- R269, R275: lanes of pseudo-channel `p` that spares replace, its channel's command/address lanes among them (log 59). -/
def sparesOf (res : TrainResult) (p : Nat) : Nat :=
  (((res.dataLanes.filter fun x => x.chan.toNat == p) ++ res.caLanes.filter fun x => sameChannel x.chan.toNat p).map
    fun x => min x.failed x.spares).sum

/-- R273, R269: pseudo-channel `p` after training. -/
def chanAfter (list : List Byte) (res : TrainResult) (p hc : Nat) : Chan :=
  let k := intervalsBy (BitVec.ofNat 8 p) hc
  let listed := byteAt list p != 0
  let out := listed || mapsOut res p
  { Chan.reset with trained := !out, mapout := out, listed := listed, spares := BitVec.ofNat 4 (min 15 (sparesOf res p)),
                    interval := k, windows := k }

/-- R266, R273: HBM after training. -/
def HbmSys.train (h : HbmSys) (list : List Byte) (res : TrainResult) (hc : Nat) : HbmSys :=
  let chans : Tbl Chan := (List.range 256).map fun p => (p, chanAfter list res p hc)
  let out := (chans.filter fun e => e.2.mapout).length
  { h with chans := chans, mapout := BitVec.ofNat 9 out, live := BitVec.ofNat 9 (256 - out),
           ilv := h.ilv.filter fun p => !(chans.get .reset p.toNat).mapout }

/-- R423, R455: a cell zeroed and loaded with CELL_FW and UCODE. -/
def Cell.load (c : Cell) (fw uc : List Byte) : Cell :=
  { c with ls := .empty, win := Mem.empty.store sramUnit 0 fw, slice := .empty, uc := ucodeOf uc, stores := [] }

/-- R423: a cell that has passed its self-test. -/
def State.trainCell (s : State) (res : TrainResult) (fw uc : List Byte) (g : Nat) : State :=
  if res.badCells.any fun x => x.toNat == g then s
  else
    s.updCell (BitVec.ofNat 8 g) fun c =>
      { c.load fw uc with id := { c.id with present := true, lastTest := s.clk.hc } }

/-- A port on which every lane works. -/
def wholeLanes : LaneResult := { light := true, working := BitVec.allOnes 16, otherFailure := false }

/-- What training finds on port `p`. -/
def lanesOf (res : TrainResult) (p : Nat) : LaneResult :=
  match res.lanes.find? fun e => e.1.toNat == p with | some e => e.2 | none => wholeLanes

/-- R377, R378: failed lanes of port `p` that ask for spares: a port that is not used, or shows no light, has none. -/
def State.failedLanes (s : State) (res : TrainResult) (p : Nat) : Nat :=
  if (s.opt.port (BitVec.ofNat 3 p)).used && (lanesOf res p).light then 16 - laneCount (lanesOf res p).working else 0

/-- R377, R378: train the ports of engine `e` that the Atlas uses: bias and equaliser from the load curve, the engine's spares shared between
the two, and then each of them. -/
def State.trainEngine (s : State) (res : TrainResult) (e : Nat) : State :=
  let n := (res.spares.getD e 4).toNat
  let x := spareSplit (s.failedLanes res (2 * e)) (s.failedLanes res (2 * e + 1)) n
  let s := { s with opt := { s.opt with spares := s.opt.spares.set e n } }
  let port (s : State) (p n : Nat) : State :=
    if (s.opt.port (BitVec.ofNat 3 p)).used then (s.curvePort res.temps res.mv p).trainPort (BitVec.ofNat 3 p) (lanesOf res p) n else s
  port (port s (2 * e) x.1) (2 * e + 1) x.2

/-- R431: the identity key pair is derived, and its record compared or written. -/
def State.deriveIdentity (s : State) : State :=
  let pk : BitVec 256 := BitVec.ofNat 256 (leNat (identityPublic s.fuses.secret))
  let same := match s.flash.recRead identityRec with | some (_, bs) => fieldOf bs 0 32 == pk.toNat | none => false
  let body := leBytes pk.toNat 32 ++ leBytes s.boot.boots.toNat 4 ++ List.replicate 28 0
  { s with boot := { s.boot with idpk := pk, idfirst := !same }
           flash := if same then s.flash else s.flash.recWrite identityRec body }

/-- R423, PHASE 4: HBM and optical training, self-test, zeroing and loading of the cells, identity. -/
def execTrain (res : TrainResult) (s : State) : Out :=
  if !s.inPhase 4 then .next s
  else
    let b := s.flash.section' s.boot.slot
    let s1 := { s with hbm := s.hbm.train s.flash.healthRead res s.clk.hc }
    let s2 := (List.range 256).foldl (fun s g => s.trainCell res (b 2) (b 0xA) g) s1
    let s3 := (List.range 4).foldl (fun s e => s.trainEngine res e) s2
    .next (s3.deriveIdentity.toPhase 5)

/-- R412: HBM sections that reach past the populated range. -/
def State.hbmDestFail (s : State) : Option (Nat × Nat) :=
  (((s.flash.images s.boot.slot).filter fun x => x.type == 0x13 && decide (s.hbmBytes < x.dest + x.len)).head?).map fun x =>
    (0x10, x.ix)

/-- R398: COUNT clipped to the populated range. -/
def Optics.clip (o : Optics) (pages : Nat) : Optics := { o with count := BitVec.ofNat 24 (min o.count.toNat (pages - o.first.toNat)) }

/-- R254, R274, R423, PHASE 5: once no port trains any more, every live sector is zeroed, and the capacity checked. -/
def execHbmzero (s : State) : Out :=
  if !s.inPhase 5 || s.optTraining then .next s
  else if s.hbm.live.toNat < bits (dwAt (s.flash.section' s.boot.slot 3) 3) 32 9 then .next (s.bootFail (0x0F, 0))
  else
    match s.hbmDestFail with
    | some f => .next (s.bootFail f)
    | none => .next (({ s with hbm := { s.hbm with mem := .empty, caches := [] }, opt := s.opt.clip (s.hbmBytes / 0x10000) } :
        State).toPhase 6)

/-! LOAD. -/

/-- R412: whether a section targets cell `g`. -/
def State.targets (s : State) (x : Sect) (g : CellId) : Bool :=
  if x.dkind = 1 then x.dsel == g.toNat
  else if x.dkind = 2 then (s.group x.dsel).orbit.any (· == g)
  else x.dkind == 3

/-- R412: write a CODE, LOCAL or SCRATCH section into a cell. -/
def Cell.loadImage (c : Cell) (x : Sect) (bs : List Byte) : Cell :=
  if x.type = 0x10 then { c with win := c.win.store sramUnit x.dest bs }
  else if x.type = 0x11 then { c with ls := c.ls.store sramUnit x.dest bs }
  else if x.type = 0x12 then { c with slice := c.slice.store sramUnit x.dest bs }
  else c

/-- R423, R424: write bytes of an image section to every present cell that it targets, or to HBM. -/
def State.loadSect (s : State) (bs : List Byte) (x : Sect) : State :=
  if x.type = 0x13 then { s with hbm := s.hbm.writeBy none x.dest bs }
  else
    (List.range 256).foldl (fun s n =>
      let g : CellId := BitVec.ofNat 8 n
      if s.targets x g && (s.cell g).id.present then s.updCell g fun c => c.loadImage x bs else s) s

/-- R422, R424, PHASE 6: image sections are streamed in directory order; the first that fails stops the start, and what it has written stays
in memory. -/
def execLoad (s : State) : Out :=
  if !s.inPhase 6 then .next s
  else
    let r := s.streamSects State.loadSect (fun _ _ => none) (s.flash.images s.boot.slot)
    match r.2 with
    | some f => .next (r.1.bootFail f)
    | none => .next (r.1.toPhase 7)

/-- R413, R423: the pilot starts CELL_FW at window offset 0x40. -/
def Cell.startFw (c : Cell) (now : Nat) : Cell :=
  { c with pil := { c.pil with mode := .firmware, pc := 0x100040, next := now } }

/-- R36: form the groups whose members are all present. -/
def State.formGroups (s : State) : State :=
  { s with groups := s.groups.map fun e =>
      (e.1, { e.2 with formed := e.2.defined && e.2.orbit.all fun g => (s.cell g).id.present }) }

/-- R423, PHASE 7: CELL_FW starts in every present cell, and groups are formed. -/
def execCellinit (s : State) : Out :=
  if !s.inPhase 7 then .next s
  else
    let s1 := (List.range 256).foldl (fun s n =>
      let g : CellId := BitVec.ofNat 8 n
      if (s.cell g).id.present then s.updCell g fun c => c.startFw s.clk.cc else s) s
    .next (s1.formGroups.toPhase 8)

/-- R433: a flash operation that the arbiter has admitted has not been performed yet. -/
def State.flashBusy (s : State) : Bool := s.boot.busy.isSome && !s.boot.doneFlash

/-- R425: after READY, the ports whose link is up offer their version. -/
def State.offerPorts (s : State) : State :=
  { s with ports := s.ports.map fun e => if e.2.up then (e.1, e.2.offer true) else e }

/-- R425, R433, PHASE 8: READY: the boot record is written, and the fused SVN may advance. A flash operation under way comes first. -/
def execReady (s : State) : Out :=
  if !s.inPhase 8 || s.boot.ready || s.flashBusy then .next s
  else
    let r := s.flash.bootRead
    let svn := s.flash.atlasSvn s.boot.slot
    let adv := bit (s.flash.atlasDw s.boot.slot 0) 46 && decide (s.fuses.svn < svn)
    let b := { s.boot with ready := true, readyms := BitVec.ofNat 32 (s.clk.hc / hcPerMs),
                           boots := BitVec.ofNat 32 (r.2 + 1), fusedSvn := if adv then BitVec.ofNat 6 svn else s.boot.fusedSvn }
    .next (State.offerPorts
      { s with boot := b, flash := s.flash.bootWrite r.1 (r.2 + 1), fuses := if adv then { s.fuses with svn := svn } else s.fuses })

/-- R410, R426, R427: pseudo-channels fenced and not yet listed are added to the health list, together; before READY the module then
restarts with the same slot, unless its start has stopped. A flash operation under way comes first. -/
def execHealthListWrite (s : State) : Out :=
  if !s.hubOn || s.hbm.healthWait.isEmpty || s.flashBusy then .next s
  else
    let l := s.hbm.healthWait.foldl (fun l p => l.set p.toNat (if (s.hbm.chan p).fenceWhy = 1 then 2 else 1)) s.flash.healthRead
    let s1 := { s with flash := s.flash.healthWrite l, hbm := { s.hbm with healthWait := [] } }
    .next (if s.boot.ready || s.boot.phase == 15 then s1 else s1.restartSame)

/-- R494: a die sensor has read 112 °C or more for 1 ms: the module is off, as if the input had been removed. -/
def execThermalShutdown (tjHalf : Int) (us : Nat) (s : State) : Out :=
  .next (if s.clk.powered && 224 ≤ tjHalf && 1000 ≤ us then s.powerCycle false else s)

/-- R489, R491: input power is lost. -/
def execPowerOff (s : State) : Out := .next (if s.clk.powered then s.powerCycle false else s)

end Sys2Proof.Machine
end

