-- ==== Sys2Proof/Machine/HbmOps.lean ====
section
/-! DEFINITION. HBM and tile-cache events (R258, R270, R271, R309) and scrubbing (R440, R441). -/

namespace Sys2Proof.Machine

/-- R258, R309: the oldest fill in flight of tile `t` returns: its line is installed, unless an invalidation or a write of the line
came before. With none in flight nothing happens. -/
def execCacheFill (t : BitVec 2) (s : State) : Out :=
  let s := s.sweep t.toNat
  match (s.hbm.cache t.toNat).fills with
  | [] => .next s
  | f :: rest =>
    if s.clk.powered && !s.clk.stopped && !s.clk.frozen then
      .next { s with hbm := s.hbm.updCache t.toNat fun c =>
        let c1 := { c with fills := rest }
        if f.live then c1.install { num := f.num, data := f.data, keep := f.keep } else c1 }
    else .next s

/-- R270, R271, R272: the next re-centring window of pseudo-channel `c`, once the hub count has reached its start, one every 32 ms: a waiting
delay-code correction is applied, and the corrected-error interval ends. One in whose hc the pseudo-channel is fenced does not run. An
untrained one has none. -/
def execRecentre (c : ChanId) (s : State) : Out :=
  let x := s.hbm.chan c
  let start := intervalStart c + x.windows * intervalHc
  if s.hubOn && x.trained && decide (start ≤ s.clk.hc) then
    .next { s with hbm := s.hbm.updChan c fun x =>
      let x := { x.roll (intervalsBy c s.clk.hc) with windows := x.windows + 1 }
      if x.fenced && x.fenceHc == start then x else { x with corr := x.corrNext.getD x.corr, corrNext := none } }
  else .next s

/-- R263, R270, R418: every 1 ms each trained pseudo-channel's correction is looked up in its stack's curve; it waits for the next refresh or
window. One that has waited since the last lookup has met a refresh (log 58). `temps` are the stacks' temperatures in °C: above 85 the
refresh rate doubles. Before the next 1 ms nothing happens. -/
def execHbmLoadCurve (temps : List Int) (mv : Nat) (s : State) : Out :=
  if !s.hubOn || s.clk.hc < s.gov.hbmAt + hcPerMs then .next s
  else
    let upd (h : HbmSys) (p : Nat) : HbmSys :=
      match s.gov.hbmCurves.get [] (p / 32) with
      | [] => h
      | b =>
        if (h.chan (BitVec.ofNat 8 p)).trained then
          h.updChan (BitVec.ofNat 8 p) fun x =>
            { x with corr := x.corrNext.getD x.corr
                     corrNext := some (curveByte b (41 * tempStep (temps.getD (p / 32) 0) + supplyBand mv)) }
        else h
    let hot := ((List.range 8).map fun k => b2n (85 < temps.getD k 0) * 2 ^ k).sum
    .next { s with hbm := { (List.range 256).foldl upd s.hbm with hot := BitVec.ofNat 8 hot }, gov := { s.gov with hbmAt := s.clk.hc } }

/-- R441, R479: a scrubber raises a record with ACTION RECORD; while the module is frozen it goes by the hub's own path. -/
def State.raiseScrub (s : State) (g : CellId) (addr : Nat) : State :=
  if s.clk.frozen then { s with hubRecs := s.hubRecs ++ [s.cellRec g mechSram actRecord 1 9 0 addr] }
  else s.raise g mechSram actRecord 1 9 0 addr

/-- R253, R264: wrong bits or symbols strike a unit of a store. -/
def State.strikeUnit (s : State) (u : ScrubUnit) (n : Nat) : State :=
  match u with
  | .localStore g k => s.updCell g fun c => { c with ls := c.ls.strike sramTop k n }
  | .window g k => s.updCell g fun c => { c with win := c.win.strike sramTop k n }
  | .scratch g k => s.updCell g fun c => { c with slice := c.slice.strike sramTop k n }
  | .hbm k => { s with hbm := { s.hbm with mem := s.hbm.mem.strike hbmTop k n } }

/-- R264: the metadata word of a sector: bits [25:10] of its pseudo-channel offset. -/
def HbmSys.metaWord (h : HbmSys) (k : Nat) : Nat := match h.chanOf (k * hbmUnit) with | some (_, o) => bits o 10 16 | none => 0

/-- R253, R259, R263, R264: a fault strikes. A metadata word other than the sector's, or a second parity error in a row, makes the sector
uncorrectable. -/
def State.upset (s : State) (u : Upset) : State :=
  let spoil (k : Nat) : State := { s with hbm := { s.hbm with mem := s.hbm.mem.strike 0 k 1 } }
  match u with
  | .store x n => s.strikeUnit x n
  | .metadata k w => if w.toNat = s.hbm.metaWord k then s else spoil k
  | .onDie k => { s with hbm := { s.hbm with onDie := s.hbm.onDie ++ [k] } }
  | .parity k n => if n < 2 then s else spoil k
  | .line t num k n => { s with hbm := s.hbm.updCache t.toNat fun c => c.strike num k.toNat n }

/-- R441: bytes that a scrub port reads at once. -/
def scrubBytes : Nat := 64

/-- R440, R441: the scrub read of unit `n` of an SRAM of cell `g`: `m` holds it, `pl` is its place, `base` the address of the SRAM's first byte.
It corrects and writes back what the code can, and raises a record with ACTION RECORD for a code unit that it cannot, which stays as it is until
it is written. -/
def State.scrubCell (s : State) (g : CellId) (m : Mem) (pl : Place) (base n : Nat) : State :=
  let o := n * scrubBytes
  let s1 := s.correctAt g pl scrubBytes
  if s1.badHome g pl scrubBytes then s1.raiseScrub g (base + m.firstBad sramUnit o scrubBytes * sramUnit) else s1

/-- R441, R440: the scrub read of one unit, 64 bytes, after the faults `ups` have struck. In HBM what it finds counts. -/
def execScrub (u : ScrubUnit) (ups : List Upset) (s : State) : Out :=
  if !s.hubOn then .next s
  else
    let s := ups.foldl State.upset s
    match u with
    | .localStore g n => .next (s.scrubCell g (s.cell g).ls (.ls (n * scrubBytes)) 0 n)
    | .window g n => .next (s.scrubCell g (s.cell g).win (.win (n * scrubBytes)) winBase n)
    | .scratch g n => .next (s.scrubCell g (s.cell g).slice (.slice g (n * scrubBytes)) (sliceAddr g 0) n)
    | .hbm n =>
      match s.hbm.chanOf (n * hbmUnit) with
      | none => .next s
      | some (p, _) =>
        let x := s.hbmData (n * hbmUnit) hbmUnit
        .next (match x.2 with
          | .ecc => x.1.raiseHub mechHbm actRecord 1 0xA p.toNat 0 (0x10000000000 + n * hbmUnit) none
          | _ => x.1)

end Sys2Proof.Machine
end

