-- ==== Sys2Proof/Machine/Fabric.lean ====
section
/-! DEFINITION. The fabric (R16 to R23, R442, R443): a flit arrives at a router, and a credit returns. -/

namespace Sys2Proof.Machine

/-- Change router `r`. -/
def State.updRouter (s : State) (r : CellId) (f : Router → Router) : State := s.updCell r fun c => { c with router := f c.router }

/-- R442, R443: the record of a dropped flit: it names the flit's command, or, without a correct sideband, marks every command. `cell` is the
router that dropped it, none for the crossbar, at the hub link of router `r`. -/
def lossRec (cell : Option CellId) (r : CellId) (f : Flit) (known : Bool) : ErrRec :=
  { mech := mechFlit, action := if !known then actAll else if f.tag.isSome then actCommand else actRecord, cls := 2, cell := cell,
    engine := if cell.isSome then 8 else 9, code := 0, unit := BitVec.ofNat 16 r.toNat, addr := 0, cmd := if known then f.tag else none }

/-- R442: the source's request that a dropped flit carried, where its sideband says so. -/
def lostReq (f : Flit) (known : Bool) : List (Endpoint × Nat) :=
  match known, f.req with
  | true, some q => [(f.src, q)]
  | _, _ => []

/-- R23: the request of a dropped flit is not performed. -/
def State.loseReq (s : State) (f : Flit) : State :=
  match f.src, f.req with
  | .cell g, some q =>
    s.updCell g fun c => { c with pil := { c.pil with remotes := c.pil.remotes.map fun x =>
      if x.req = q && !x.performed then { x with lost := true } else x } }
  | _, _ => s

/-- R442, R443: router `r` drops a flit; the source is owed a loss acknowledgement for its request. -/
def State.loseFlit (s : State) (r : CellId) (f : Flit) (known : Bool) : State :=
  (s.updCell r fun c =>
    { c with out := c.out ++ [.record (lossRec (some r) r f known)]
             router := { c.router with owed := c.router.owed ++ lostReq f known } }).loseReq f

/-- R442, R443: the crossbar drops a flit that came by the hub link of router `r`. -/
def State.loseAtHub (s : State) (r : CellId) (f : Flit) (known : Bool) : State :=
  State.loseReq { s with hubRecs := s.hubRecs ++ [lossRec none r f known], xbar := { s.xbar with owed := s.xbar.owed ++ lostReq f known } } f

/-- Where a flit that arrives comes from. -/
inductive FlitFrom where
  /-- The cell's own interface, or the hub. -/
  | sender
  /-- The wire of a router, with its key. -/
  | wire (r : CellId) (k : Nat)
  /-- The crossbar, with its key. -/
  | xbar (k : Nat)

/-- R16, R18: whether a flit that arrives by the hub link of router `r` arrives at the crossbar: its source's column leads there. -/
def atHub (r : CellId) (inp : Dir) (f : Flit) : Bool :=
  inp == .edge && viaHub f && (match f.src with | .cell a => hubRouter a == r | .hub => false)

/-- R16, R18, R22: where flit `f` comes from that arrives at input `inp` of router `r`, or at the crossbar by that router's hub link; none where
no link brings it there. -/
def flitFrom (r : CellId) (inp : Dir) (f : Flit) : Option FlitFrom :=
  match inp with
  | .cell => if f.src = .cell r then some .sender else none
  | _ =>
    if atHub r inp f then some (.wire r (8 * 4 + channelOf f))
    else if inp = .edge && viaHub f then
      match f.src, f.dst with
      | .hub, .cell d => if hubRouter d = r then some .sender else none
      | .cell a, .cell d => if hubRouter d = r then some (.xbar (8 * (hubRouter a).toNat + channelOf f)) else none
      | _, _ => none
    else (farEnd r inp).map fun e => .wire e.1 (8 * dirNat e.2 + channelOf f)

/-- R19: the class in which a flit travels: that of its request, a mover's being that of the command; what carries no request and is sent to the
hub, a report, or by the hub or a register may be control, and goes in its command's class otherwise. -/
def State.flitClassed (s : State) (f : Flit) : Bool :=
  let ofCmd := s.disp.cmds.all fun c => f.tag != some c.id || f.cls == c.cls
  match f.src, f.req with
  | .cell g, some q =>
    (match (s.cell g).pil.remotes.find? fun r => r.req == q with
    | some r => f.cls == r.cls
    | none => f.cls == s.cellClass g)
  | .cell g, none => f.cls == .control || (if f.tag.isSome then ofCmd else f.cls == s.cellClass g)
  | .hub, _ => f.cls == .control || ofCmd

/-- R19, R21, R22: whether flit `f` can arrive: it is the oldest where it comes from, and a sender or the crossbar has a place for it. -/
def State.flitComes (s : State) (r : CellId) (inp : Dir) (f : Flit) : FlitFrom → Bool
  | .wire q k => ((s.cell q).router.wire.get [] k).head? == some f
  | .xbar k => (s.xbar.bufs.get [] k).head? == some f && decide (((s.cell r).router.buf (dirNat inp) (channelOf f)).length < linkDepth (dirNat inp))
  | .sender => s.flitClassed f && decide (((s.cell r).router.buf (dirNat inp) (channelOf f)).length < linkDepth (dirNat inp))

/-- The flit leaves where it comes from. -/
def State.takeWire (s : State) : FlitFrom → State
  | .wire q k => s.updRouter q fun x => { x with wire := x.wire.set k (x.wire.get [] k).tail }
  | .xbar k => { s with xbar := { s.xbar with bufs := s.xbar.bufs.set k (s.xbar.bufs.get [] k).tail } }
  | .sender => s

/-- R23: a flit has been dropped at input `inp` of router `r`: its credit goes back all the same. -/
def Router.dropped (x : Router) (r : CellId) (inp : Dir) (v : Nat) : Router :=
  let k := 8 * dirNat inp + v
  if fromRouter r (dirNat inp) v then { x with freed := x.freed.set k (x.freed.get 0 k + 1) } else x

/-- R18, R23, R442: a flit arrives at the crossbar by the hub link of router `r`: for the hub, which takes it, or on its way to the other half. -/
def State.hubTakes (s : State) (r : CellId) (f : Flit) (ecc : FlitEcc) : State :=
  match ecc with
  | .lost => s.loseAtHub r f true
  | .lostUnknown => s.loseAtHub r f false
  | .good =>
    let k := 8 * r.toNat + channelOf f
    if f.dst = .hub then s else { s with xbar := { s.xbar with bufs := s.xbar.bufs.set k (s.xbar.bufs.get [] k ++ [f]) } }

/-- R21, R23, R442, R443: a flit arrives at input `inp` of router `r`: it is buffered, and goes on as its output serves it, or it is dropped. -/
def State.routerTakes (s : State) (r : CellId) (inp : Dir) (f : Flit) (ecc : FlitEcc) : State :=
  let i := 8 * dirNat inp + channelOf f
  match ecc with
  | .lost => (s.updRouter r fun x => x.dropped r inp (channelOf f)).loseFlit r f true
  | .lostUnknown => (s.updRouter r fun x => x.dropped r inp (channelOf f)).loseFlit r f false
  | .good => s.updRouter r fun x => { x with bufs := x.bufs.set i (x.bufs.get [] i ++ [f]) }

/-- R16, R18, R21, R455: a flit arrives at input `inp` of router `r`, or, where its way leads into the hub there, at the crossbar. A flit that no
link brings there, or that its sender has not sent or has no credit for, does not arrive. A router takes no flit from a cell in reset, and
none while the module is frozen. -/
def execFlitReceive (r : CellId) (inp : Dir) (f : Flit) (ecc : FlitEcc) (s : State) : Out :=
  match flitFrom r inp f with
  | none => .next s
  | some src =>
    if !s.dispOn || (inp == .cell && s.cellDown r) || !s.flitComes r inp f src then .next s
    else .next (if atHub r inp f then (s.takeWire src).hubTakes r f ecc else (s.takeWire src).routerTakes r inp f ecc)

/-- R21: the router whose credits of an output lie with it, and their number: another router's that it has freed. -/
def State.creditsBack (s : State) (r : CellId) (out : Dir) (v : Nat) : Nat :=
  let x := (s.cell r).router
  let k := 8 * dirNat out + v
  match (if out = .edge && v % 2 = 1 then none else farEnd r out) with
  | some (q, i) => (s.cell q).router.freed.get 0 (8 * dirNat i + v)
  | none => x.used.get 0 k - (x.wire.get [] k).length - (if out = .edge then (s.xbar.bufs.get [] (8 * r.toNat + v)).length else 0)

/-- R21: the receiver of a flit has handed its credit back. -/
def State.creditTaken (s : State) (r : CellId) (out : Dir) (v : Nat) : State :=
  match (if out = .edge && v % 2 = 1 then none else farEnd r out) with
  | some (q, i) =>
    let k := 8 * dirNat i + v
    s.updRouter q fun x => { x with freed := x.freed.set k (x.freed.get 0 k - 1) }
  | none => s

/-- R21: a credit returns at an output of router `r`: a flit sent there has left the receiver's buffer. With none on its way nothing
happens. -/
def execCreditReturn (r : CellId) (out : Dir) (vc : BitVec 3) (s : State) : Out :=
  let k := 8 * dirNat out + vc.toNat
  if !s.dispOn || s.creditsBack r out vc.toNat = 0 then .next s
  else .next ((s.creditTaken r out vc.toNat).updRouter r fun x => { x with used := x.used.set k (x.used.get 0 k - 1) })

end Sys2Proof.Machine
end

