-- ==== Sys2Proof/Machine/FlashOps.lean ====
section
/-! DEFINITION. The flash operations of the running module (R433), and attestation (R432). -/

namespace Sys2Proof.Machine

/-! Flash operations. A GO leaves the operation in BUSY; its command performs it, and FLASH_OP_DONE ends it. -/

/-- R433: the slot that is not running. -/
def State.standby (s : State) : Bool := !s.boot.slot

/-- R433: the operation under way, if it is `op` and has not been performed. -/
def State.flashOp (s : State) (op : Nat) : Option FlashOp :=
  match s.boot.busy with
  | some x => if s.hubOn && x.op == op && !s.boot.doneFlash then some x else none
  | none => none

/-- R433: an operation has been performed, with a result. -/
def State.flashEnd (s : State) (result : Nat) : State :=
  { s with boot := { s.boot with result := BitVec.ofNat 4 result, doneFlash := true } }

/-- R433: the source of a PROGRAM: 64 KiB of one cell's slice, if SRC names that. -/
def State.flashSrc (s : State) (a : Nat) : Option Place :=
  if a % 64 ≠ 0 then none
  else
    match place s.hbmBytes 0 a with
    | .slice g o => if o + 0x10000 ≤ 0xC000000 then some (.slice g o) else none
    | _ => none

/-- R253, R433: PROGRAM. With no such operation under way nothing happens. -/
def execProgram (s : State) : Out :=
  match s.flashOp 1 with
  | none => .next s
  | some x =>
    match s.flashSrc x.src with
    | none => .next (s.flashEnd 1)
    | some pl =>
      if 0xFFFEFF < x.block then .next (s.flashEnd 1)
      else
        let s1 := s.pageMet pl 0x10000
        match s.pageRead pl 0x10000 with
        | none => .next (s1.flashEnd 5)
        | some bs =>
          .next (State.flashEnd
            { s1 with flash := s.flash.store flashUnit (slotBase s.standby + x.block * 0x10000) bs } 0)

/-- R433: FLASH or VERIFY, by the reason of a failed check. -/
def flashResult (reason : Nat) : Nat := if reason = 1 then 2 else 3

/-- R433: ACTIVATE. With no such operation under way nothing happens. -/
def execActivate (s : State) : Out :=
  match s.flashOp 2 with
  | none => .next s
  | some _ =>
    match s.flash.atlasFail s.standby s.fuses with
    | some r => .next (s.flashEnd (flashResult r))
    | none => .next (State.flashEnd { s with flash := s.flash.bootWrite s.standby s.flash.bootRead.2 } 0)

/-- R433: CLEARHEALTH. With no such operation under way nothing happens. -/
def execClearhealth (s : State) : Out :=
  match s.flashOp 3 with
  | none => .next s
  | some x =>
    if 256 < x.pc then .next (s.flashEnd 1)
    else
      let l := if x.pc = 256 then List.replicate 256 0 else s.flash.healthRead.set x.pc 0
      .next (State.flashEnd { s with flash := s.flash.healthWrite l } 0)

/-- R433: BURNKEY. With no such operation under way nothing happens. -/
def execBurnkey (s : State) : Out :=
  match s.flashOp 4 with
  | none => .next s
  | some _ =>
    if s.fuses.custKey ≠ 0 then .next (s.flashEnd 4)
    else
      match orFail (s.flash.headerFail s.standby) (orFail (s.flash.sigFail s.standby true) (s.flash.sigFail s.standby false)) with
      | some r => .next (s.flashEnd (flashResult r))
      | none =>
        .next (State.flashEnd
          { s with fuses := { s.fuses with custKey := sha256 (s.flash.cpk s.standby) }, boot := { s.boot with custblank := false } } 0)

/-- R428, R433: RESTART: the module restarts as a power cycle with the converters on. With no such operation under way nothing
happens. -/
def execRestart (s : State) : Out :=
  match s.flashOp 5 with
  | none => .next s
  | some _ => .next (s.powerCycle true)

/-- R433: an operation that has been performed ends: BUSY clears. With none nothing happens. -/
def execFlashOpDone (s : State) : Out :=
  if s.hubOn && s.boot.busy.isSome && s.boot.doneFlash then
    .next { s with boot := { s.boot with busy := none, doneFlash := false } }
  else .next s

/-- R433: a GO: it starts OP unless an operation runs; 0 is none, and a reserved OP ends at once with BADARG. -/
def Boot.go (b : Boot) : Boot :=
  if b.busy.isSome || b.op = 0 then b
  else if 6 ≤ b.op.toNat then { b with result := 1 }
  else { b with busy := some { op := b.op.toNat, block := b.block.toNat, pc := b.pc.toNat, src := b.src.toNat }, doneFlash := false }

/-! Attestation (R432). -/

/-- R432: the oldest admitted ATTEST: refused for its length, or its report is begun, one at a time. With none nothing happens. -/
def execAttest (s : State) : Out :=
  match s.disp.ready fun c => hdrOpcode c.hdr == 0x15 with
  | none => .next s
  | some c =>
    if !s.dispOn then .next s
    else if hdrPlen c.hdr ≠ 32 then .next (s.completeBare c stBadHeader 0 c.endAt.toNat)
    else if s.disp.cmds.any fun x => x.stage == .building then .next s
    else .next (s.setCmd { c with stage := .building })

/-- R432: the report header. -/
def State.reportHeader (s : State) (c : Cmd) : List Byte :=
  let b := s.boot
  let flags := b2n b.slot + b2n b.fallback * 2 + b2n b.custblank * 4 + b2n s.time.set * 8
  let present := (s.cells.filter fun e => e.2.id.present).map fun e => 2 ^ e.1
  leBytes 0x50525441 4 ++ leBytes 1 1 ++ leBytes flags 1 ++ leBytes b.atlasSvn.toNat 1 ++ leBytes b.fusedSvn.toNat 1
    ++ leBytes (s.flash.nsect b.slot) 2 ++ leBytes s.opt.role.toNat 2 ++ leBytes s.opt.modnum.toNat 2 ++ leBytes s.hbm.live.toNat 2
    ++ leBytes s.opt.chainid.toNat 4 ++ leBytes b.boots.toNat 4 ++ leBytes c.admittedAt.toNat 8 ++ c.payload.take 32
    ++ leBytes b.idpk.toNat 32 ++ leBytes Sys2Proof.Config.riralKeyHash.toNat 32 ++ leBytes s.fuses.custKey.toNat 32
    ++ leBytes (s.flash.customerDigest b.slot).toNat 32 ++ leBytes present.sum 32 ++ List.replicate 32 0

/-- R432: the report: header, directory of the Atlas in use, signature. -/
def State.report (s : State) (c : Cmd) : List Byte :=
  let m := s.reportHeader c ++ s.flash.directory s.boot.slot
  m ++ identitySign s.fuses.secret (shaBytes m)

/-- R432: the report that is being built ends, and is written as its command's result; a marked
command completes HW_ERROR instead (R436). With none nothing happens. -/
def execAttestReportDone (s : State) : Out :=
  match s.disp.cmds.find? fun c => c.stage == .building with
  | none => .next s
  | some c =>
    if !s.dispOn then .next s
    else
      match c.touched with
      | some n => .next (s.completeBare c stHwError (n.toNat % 2 ^ 16) s.time.track.toNat)
      | none => .next (s.completeWith c 0 (s.report c) s.time.track.toNat)

end Sys2Proof.Machine
end

