-- ==== Sys2Proof/Machine/Snapshot.lean ====
section
/-! DEFINITION. Logbook writing and snapshots (R463 to R474, R477, R480): the observation area, the entries of a snapshot, Survey, and
the channel state. -/

namespace Sys2Proof.Machine

/-! The observation area (R463, R464). -/

/-- R463: whether the area lies wholly in populated HBM. -/
def State.areaOk (s : State) : Bool :=
  0x10000000000 ≤ s.obs.base.toNat * 2 ^ 20 && s.obs.area + (s.obs.logMib.toNat + s.obs.snapMib.toNat) * 2 ^ 20 ≤ s.hbmBytes

/-- R464 to R466: one record is written: LOST after drops, then the oldest priority record, then, within the budget, the oldest
ordinary one. With none to write nothing happens. -/
def execLogbookWrite (s : State) : Out := .next (if s.hubOn then s.writeOne else s)

/-! Channel state (R477). -/

/-- R477: a channel-state entry. -/
structure ChanEntry where
  kind : Nat
  vc : Nat
  place : Nat
  index : Nat
  flit : FlitBits
deriving DecidableEq, Repr

/-- R477: WHERE of a router's input. -/
def whereOf (g : CellId) (i : Nat) : Nat := i + g.toNat * 8

/-- R477: an entry as bytes. -/
def ChanEntry.bytes (e : ChanEntry) (stamp : Word64) : List Byte :=
  leBytes (e.kind + e.vc * 2 ^ 8 + e.place * 2 ^ 16 + e.index * 2 ^ 32 + stamp.toNat % 2 ^ 40 * 2 ^ 64) 16 ++ leBytes e.flit.toNat 64

/-- R477: the flits of a buffer or a link, from position `at'` on. -/
def chanFlits (kind v place at' : Nat) (fs : List Flit) : List ChanEntry :=
  (List.range fs.length).map fun n =>
    { kind := kind, vc := v, place := place, index := at' + n, flit := match fs[n]? with | some f => f.payload | none => 0 }

/-- R477: flits in the input buffers of router `g`. -/
def State.chanRouter (s : State) (g : CellId) : List ChanEntry :=
  (s.cell g).router.bufs.flatMap fun b => chanFlits 1 (b.1 % 8) (whereOf g (b.1 / 8)) 0 b.2

/-- R477: flits on the links out of router `g`, behind those that their receivers hold. WHERE of a hub link is its router's input 4. -/
def State.chanWire (s : State) (g : CellId) : List ChanEntry :=
  (s.cell g).router.wire.flatMap fun b =>
    let v := b.1 % 8
    match (if b.1 / 8 = 4 && v % 2 = 1 then none else farEnd g (dirOf (b.1 / 8))) with
    | some (q, i) => chanFlits 1 v (whereOf q (dirNat i)) ((s.cell q).router.buf (dirNat i) v).length b.2
    | none => chanFlits 1 v (whereOf g 4) (s.xbar.bufs.get [] (8 * g.toNat + v)).length b.2

/-- R477: flits in the crossbar that came by the hub link of router `g`. -/
def State.chanXbar (s : State) (g : CellId) : List ChanEntry :=
  (List.range 6).flatMap fun v => chanFlits 2 v (whereOf g 4) 0 (s.xbar.bufs.get [] (8 * g.toNat + v))

/-- Number a list. -/
def numbered {α : Type} (l : List α) : List (Nat × α) := (List.range l.length).zip l

/-- The free content of message `n` of kind `t` of cell `g` (log 74). -/
def State.msgFlit (s : State) (g : CellId) (t n : Nat) : FlitBits := Sys2Proof.Config.responseFlit s.fresh ((g.toNat * 8 + t) * 4096 + n)

/-- R19, R477: the virtual channel of request `r` of cell `g` and of its response. -/
def State.remoteVc (s : State) (g : CellId) (r : Remote) : Nat :=
  let hub := match place s.hbmBytes g r.addr with
    | .slice h _ | .cellReg h _ => halfOf h != halfOf g
    | .hubReg _ => true
    | .hbm o => match s.hbm.chanOf o with | some (p, _) => p.toNat / 128 != halfOf g | none => false
    | _ => false
  2 * clsNat r.cls + b2n hub

/-- R477: the remote responses in flight to the pilot of cell `g`, and its requests that no home has performed. -/
def State.chanPilot (s : State) (g : CellId) : List ChanEntry :=
  let c := s.cell g
  let entry (kind t : Nat) (x : Nat × Remote) : ChanEntry :=
    { kind := kind, vc := s.remoteVc g x.2, place := whereOf g 5, index := x.1, flit := s.msgFlit g t x.1 }
  ((numbered (c.pil.remotes.filter Remote.performed)).map (entry 4 0))
    ++ ((numbered (c.pil.remotes.filter fun r => !r.performed && !r.lost)).map (entry 1 1))

/-- R19: whether an orbit packet for cell `g` came through the hub: from the other half, or by an optical port. -/
def OrbitReg.byHub (o : OrbitReg) (g : CellId) (k : OrbitPkt) : Bool :=
  halfOf k.srcg != halfOf g || (k.srcg == o.prev && o.prevX) || (k.srcg == o.next && o.nextX)

/-- R477: the flits of orbit packets. -/
def chanPackets (kind place : Nat) (o : OrbitReg) (g : CellId) (ks : List OrbitPkt) : List ChanEntry :=
  (numbered (ks.flatMap fun k => k.pack.flits.map fun f => (2 * clsNat k.cls + b2n (o.byHub g k), f))).map fun x =>
    { kind := kind, vc := x.2.1, place := place, index := x.1, flit := x.2.2 }

/-- R477: packets held in the inboxes of cell `g`, and those on their way to it, flit by flit. -/
def State.chanInbox (s : State) (g : CellId) : List ChanEntry :=
  let c := s.cell g
  chanPackets 5 (whereOf g 5) c.arr.orbit g (c.arr.inbox ++ c.vec.inbox)
    ++ chanPackets 1 (whereOf g 5) c.arr.orbit g (s.orbit.filter fun k => k.dstg == g)

/-- R477: the reports and records of cell `g` that the arbiter has not admitted, and the rings and ends that the dispatcher has sent to it. -/
def State.chanHub (s : State) (g : CellId) : List ChanEntry :=
  let entry (vc place t : Nat) (n : Nat) : ChanEntry := { kind := 1, vc := vc, place := place, index := n, flit := s.msgFlit g t n }
  let rings := s.disp.flying.filter fun x => x.cell == g
  let ends := s.disp.ends.filter fun x => x.1 == g
  ((List.range (s.cell g).out.length).map (entry 1 (whereOf g 5) 2))
    ++ ((numbered rings).map fun x => entry (2 * clsNat x.2.ring.cls + 1) (whereOf (hubRouter g) 4) 3 x.1)
    ++ ((List.range ends.length).map (entry 1 (whereOf (hubRouter g) 4) 4))

/-- R477: the channel state at a stop. -/
def State.chanState (s : State) : List ChanEntry :=
  (List.range 256).flatMap fun n =>
    let g : CellId := BitVec.ofNat 8 n
    s.chanRouter g ++ s.chanWire g ++ s.chanXbar g ++ s.chanPilot g ++ s.chanInbox g ++ s.chanHub g

/-! Writing (R464, R471, R477, R480). -/

/-- R464: a snapshot write of `n` bytes waits for a window with room for it; the number bounds the windows. -/
def State.obsWait (s : State) (n : Nat) : Nat → State
  | 0 => s
  | k + 1 => if s.obsFits n then s else (s.untilHc ((s.clk.hc / 1024 + 1) * 1024)).obsWait n k

/-- R464: windows until what has been overdrawn is made good, and one more. -/
def State.obsWindows (s : State) : Nat := s.obs.spent.toNat / obsBudget + 2

/-- R464: write snapshot bytes in parts of 4 KiB, each once its window has room. Whether a grain was refused. -/
def State.snapAll (s : State) (off : Nat) (bs : List Byte) : State × Bool :=
  (List.range ((bs.length + 4095) / 4096)).foldl (fun a i =>
    let part := (bs.drop (4096 * i)).take 4096
    let w := (a.1.obsWait part.length a.1.obsWindows).snapWrite (off + 4096 * i) part
    (w.1, a.2 || w.2)) (s, false)

/-- R464, R473: the header goes out; FLAGS tells whether a write was refused. -/
def State.writeHead (s : State) (h : SnapHead) (bad : Bool) : State :=
  let b := bad || s.hbm.fencedAt s.obs.snapArea
  ((s.snapWrite 0 (s.snapHeader { h with flags := h.flags + b2n b * 2 })).1).snapRefused b

/-- R473: the sections behind the header, up to the channel state. -/
def State.snapBody (s : State) : List Byte := (List.range snapCount).flatMap fun n => (s.snapItem none n).2

/-- R463, R473: write the snapshot of a stop, if observation writes are enabled: sections, channel state, header. -/
def State.writeSnapshot (s : State) (h : SnapHead) (chan : List ChanEntry) : State :=
  if !s.obs.en then s
  else
    let a := s.snapAll 0x100 s.snapBody
    let b := a.1.snapAll chanOff (leBytes chan.length 8 ++ chan.flatMap fun e => e.bytes h.t0)
    (b.1.obsWait 256 b.1.obsWindows).writeHead h (a.2 || b.2)

/-- R471: time runs until the Survey has read every entry; the number bounds the windows that it waits for. -/
def State.surveyRun (s : State) : Nat → State
  | 0 => s
  | n + 1 =>
    match s.stops.survey with
    | none => s
    | some r =>
      if snapCount ≤ r.pos then s
      else (s.untilHc (max (r.start + snapCount) ((s.clk.hc / 1024 + 1) * 1024))).surveyRun n

/-- R471: a running Survey has read and written its entries; time passes until it has. With none running nothing happens. -/
def execSurveyDone (s : State) : Out :=
  if !s.dispOn then .next s
  else
    let s1 := s.surveyRun (s.obsWindows + 2)
    match s1.stops.survey with
    | none => .next s1
    | some r =>
      if r.pos < snapCount then .next s1
      else
        let s2 := if s1.obs.en then
            (s1.snapWrite chanOff (leBytes 0 8)).1.writeHead r.head (r.bad || s1.hbm.fencedAt (s1.obs.snapArea + chanOff)) else s1
        .next ({ s2 with fresh := s2.fresh + 1 }.endSurvey r false)

end Sys2Proof.Machine
end

