-- ==== Sys2Proof/Machine/Failure.lean ====
section
/-! DEFINITION. Failures (R244, R248, R436, R443 to R458): error records, the watchdog, cell resets, the rotating self-test, safe
stop. -/

namespace Sys2Proof.Machine

/-! Error records (R451, R453, R454). -/

/-- R451: the eight doublewords of a record. -/
def ErrRec.words (r : ErrRec) (number arb : Word32) (track : Word64) (cmd : Option Cmd) : List Word64 :=
  let c := match cmd with
    | some c => hdrQueue c.hdr + hdrGen c.hdr * 2 ^ 10 + c.port.toNat * 2 ^ 18 + 2 ^ 19 + hdrSeq c.hdr * 2 ^ 32
    | none => 0
  [w64 (number.toNat + r.mech.toNat * 2 ^ 32 + r.action.toNat * 2 ^ 40 + r.cls.toNat * 2 ^ 48), track,
    w64 (r.unit.toNat % 2 ^ 8 + r.engine.toNat % 2 ^ 4 * 2 ^ 8 + r.code.toNat * 2 ^ 16 + 2 ^ 32), w64 (r.addr.toNat % 2 ^ 52), w64 c,
    w64 arb.toNat, 0, 0]

/-- R454: whether a kept record has a record's MECH, UNIT and ADDR. -/
def ErrRec.repeats (r : ErrRec) (w : List Word64) : Bool :=
  bits (hdrDw w 0) 32 8 == r.mech.toNat && bits (hdrDw w 2) 0 8 == r.unit.toNat % 2 ^ 8 && hdrDw w 3 == r.addr.toNat % 2 ^ 52

/-- R454: the kept record that a record with ACTION RECORD is merged into. -/
def State.mergeInto (s : State) (r : ErrRec) : Option Nat :=
  if r.action = actRecord then
    (s.safe.log.find? fun e => r.repeats e.2 && decide (s.clk.hc ≤ s.safe.logHc.get 0 e.1 + hcPerMs)).map Prod.fst
  else none

/-- R468: the Logbook record of an error record that the arbiter admitted. -/
def State.logRec (s : State) (r : ErrRec) (arb : Word32) (stamp : Word64) (number : Nat) : State :=
  s.logAt stamp 0x09 r.engine.toNat (r.unit.toNat % 256) arb.toNat number
    (w64 (r.mech.toNat + r.action.toNat * 2 ^ 8 + r.cls.toNat * 2 ^ 16)) 0

/-- R454: MSI-X vector 0 on a port whose version is agreed, at most once per 10 µs. -/
def State.notify (s : State) (p : PortId) : State :=
  let x := s.pport p
  let due := match x.noticeAt with | some t => decide (t + 18000 ≤ s.clk.hc) | none => true
  if x.st = 2 && due then (s.updPport p fun x => { x with noticeAt := some s.clk.hc }).msix p 0 else s

/-- R339, R454: COUNT of a kept record increases; NOTICE, the Logbook, which tells the admission under its number, and the ports are told. -/
def State.mergeRec (s : State) (r : ErrRec) (arb : Word32) (stamp : Word64) (i : Nat) : State :=
  let w := s.safe.log.get [] i
  let d := hdrDw w 2
  let w1 := w.set 2 (w64 (bits d 0 32 + satAdd 0xFFFFFFFF (bits d 32 32) 1 * 2 ^ 32))
  let s1 := State.logRec { s with safe := { s.safe with log := s.safe.log.set i w1, notice := true } } r arb stamp (bits (hdrDw w 0) 0 32)
  (s1.notify 0).notify 1

/-- R453, R454, R468: a record is numbered and kept; NOTICE, the Logbook and the ports are told. -/
def State.keepRec (s : State) (r : ErrRec) (arb : Word32) (stamp : Word64) : State :=
  let x := s.safe
  let i := x.next.toNat % 256
  let full := !(x.log.get [] i).isEmpty
  let x1 := { x with log := x.log.set i (r.words x.next arb stamp (r.cmd.bind s.disp.cmd)), logHc := x.logHc.set i s.clk.hc,
                     next := x.next + 1, notice := true,
                     lost := if full then BitVec.ofNat 16 (satAdd 0xFFFF x.lost.toNat 1) else x.lost }
  let s1 := State.logRec { s with safe := x1 } r arb stamp x.next.toNat
  (s1.notify 0).notify 1

/-- R436: mark a command with a record's number, and end it in every member; the first touching record counts. -/
def State.markCmd (s : State) (c : Cmd) (number : Word32) : State :=
  if c.touched.isSome then s
  else
    let c1 := { c with touched := some number, endAt := if c.stage == .sent then c.endAt else s.time.track }
    (s.setCmd c1).endMembers c1 none

/-- R436, R443, R454: the commands that a record marks. One whose completing event came before a record of a cell keeps its status. -/
def State.markFor (s : State) (r : ErrRec) (number : Word32) : State :=
  if r.action = actAll then
    s.disp.cmds.foldl (fun s c => if c.over then s else s.markCmd c number) s
  else if r.action = actCommand then
    match r.cmd.bind s.disp.cmd with
    | some c => if c.over && r.cell.isSome then s else s.markCmd c number
    | none => s
  else s

/-- R339, R454: the arbiter admits a record: merged, or numbered and kept. -/
def State.admitRec (s : State) (r : ErrRec) : State :=
  let arb := s.disp.arbSeq
  let stamp := s.arbStamp s.clk.hc
  let s1 := s.takeArb s.clk.hc
  match s1.mergeInto r with
  | some i => s1.mergeRec r arb stamp i
  | none => (s1.keepRec r arb stamp).markFor r s1.safe.next

/-- R454, R479: the oldest record of a source is admitted. While the module is frozen only the hub's own are. With none waiting
nothing happens. -/
def execErrorRecord (src : RecSource) (s : State) : Out :=
  match src with
  | .hub =>
    match s.hubRecs with
    | r :: rest => .next (if s.hubOn then State.admitRec { s with hubRecs := rest } r else s)
    | [] => .next s
  | .cell g =>
    match (s.cell g).out with
    | .record r :: rest => .next (if s.dispOn then ((s.updCell g fun c => { c with out := rest }).admitRec r).sendNotes g else s)
    | _ => .next s

/-! The watchdog (R248). -/

/-- R248: whether a cause has held for LIMIT hc. -/
def State.dogBites (s : State) (g : CellId) : Bool :=
  (s.cell g).id.dog.any fun e => decide (e.2 + s.safe.wdogLimit.toNat ≤ s.clk.hc)

/-- R248: the watchdog fires for cell `g`: its FIRED bit is set, and the cell enters reset. Before the limit nothing happens. -/
def execWatchdog (g : CellId) (s : State) : Out :=
  if s.dispOn && !s.cellDown g && s.dogBites g then
    let k := g.toNat / 64
    let s1 := { s with safe := { s.safe with fired := s.safe.fired.set k (s.safe.fired.get 0 k ||| w64 (2 ^ (g.toNat % 64))) } }
    .next (s1.updCell g fun c => c.enterReset 2)
  else .next s

/-! Cell reset (R455 to R457). -/

/-- R455: reason codes. -/
def ResetWhy.code : ResetWhy → Byte
  | .triple => 1
  | .watchdog => 2
  | .lockstep => 3
  | .ecc => 4
  | .selftest => 5

/-- R455, R452: the record of a reset. -/
def State.resetRec (s : State) (g : CellId) (why : ResetWhy) : ErrRec :=
  let m := match why with
    | .triple => mechTriple | .watchdog => mechWatchdog | .lockstep => mechLockstep | .ecc => mechSram | .selftest => mechSelftest
  let k : Byte := match why with | .triple => 0 | .watchdog => 4 | .lockstep => 4 | .ecc => 1 | .selftest => 5
  { s.cellRec g m actCellReset k (if why = .watchdog || why = .selftest then 9 else 0) 0 0 with
    code := (ResetWhy.code why).setWidth 16 }

/-- R455: whether cell `g` owns a command: its ring was sent to the cell, or its slot lies in the cell's slice. -/
def Cmd.ownedBy (c : Cmd) (g : CellId) : Bool :=
  (c.stage == .sent && c.members.any (· == g)) || (match c.slot with | some x => x.leader == g | none => false)

/-- R155, R455: a command that the reset cell owns is ended in every other member. -/
def State.ownReset (s : State) (g : CellId) (stamp : Word64) (c : Cmd) : State :=
  let c1 := { c with resets := if c.resets.any (· == g) then c.resets else c.resets ++ [g], endAt := stamp }
  ((s.setCmd c1).endMembers c1 (some g)).clearInboxes c1

/-- R37, R455: DOWN of the group of cell `g`. -/
def State.setDown (s : State) (g : CellId) (down : Bool) : State :=
  let n := (s.cell g).id.group.toNat
  if n = 0x7F then s else { s with groups := s.groups.upd .reset n fun x => { x with down := down } }

/-- R442, R455: a request that has been sent and not delivered. -/
def Remote.onWay (r : Remote) : Bool := !r.performed && !r.lost

/-- R455: step 1 in the cell: ring queue, mailbox and inboxes are emptied. Its requests that are on their way stay so, and answers to the others
are discarded (step 2). -/
def Cell.emptied (c : Cell) : Cell :=
  { c with id := { c.id with admitted := true, present := false, selfTest := none }, rings := [],
           mbox := { c.mbox with words := [] }, arr := { c.arr with inbox := [] }, vec := { c.vec with inbox := [] }
           pil := { c.pil with remotes := c.pil.remotes.filter Remote.onWay } }

/-- R455: a queue's packet whose slot lies in the slice of a cell that is reset. -/
def Queue.tear (x : Queue) (g : CellId) : Queue :=
  { x with cur := x.cur.map fun k =>
      { k with torn := k.torn || (match k.slot with | some y => y.leader == g | none => false) } }

/-- R455: steps 1 to 3 of a reset with reason `why`. -/
def State.beginReset (s : State) (g : CellId) (why : ResetWhy) : State :=
  let s0 := if why = .watchdog || why = .triple then s.autoSurvey g else s
  let arb := s0.disp.arbSeq
  let number := s0.safe.next
  let stamp := s0.arbStamp s0.clk.hc
  let s1 := (s0.takeArb s0.clk.hc).keepRec (s0.resetRec g why) arb stamp
  let s2 := s1.logAt stamp 0x08 0xF g.toNat arb.toNat (ResetWhy.code why).toNat (w64 number.toNat) 0
  let s3 := (s2.setDown g true).updCell g Cell.emptied
  let s4 : State :=
    { s3 with
      disp := { s3.disp with ends := s3.disp.ends.filter (fun e => e.1 != g),
                             flying := s3.disp.flying.filter fun e => e.cell != g }
      queues := s3.queues.map fun e => (e.1, e.2.tear g) }
  (s4.disp.cmds.filter fun c => c.ownedBy g).foldl (fun s c => s.ownReset g stamp c) s4

/-- R455: reasons that arise in the cell; the hub finds the others. -/
def ResetWhy.ofCell : ResetWhy → Bool
  | .triple => true
  | .lockstep => true
  | .ecc => true
  | .watchdog => false
  | .selftest => false

/-- R455: the arbiter admits a reset of cell `g`. A pilot's lockstep mismatch (R439) arises here; the other reasons have put the cell
into reset already. A reset that arose in the cell comes after what the cell sent before it (R22, R339). With no such reset waiting nothing
happens; one for a cell whose reset runs merges into it. -/
def execCellReset (g : CellId) (why : ResetWhy) (s : State) : Out :=
  if !s.dispOn then .next s
  else
    let s1 := if why = .lockstep && !s.cellDown g then s.updCell g fun c => c.enterReset 3 else s
    if (s1.cell g).id.inReset = some (ResetWhy.code why) && !(s1.cell g).id.admitted
        && !(ResetWhy.ofCell why && !(s1.cell g).out.isEmpty) then .next (s1.beginReset g why)
    else .next s1

/-- R455: a cell after a reset: registers at their reset values; its place in its group and orbit order stays. -/
def Cell.afterReset (c : Cell) (hc : Nat) : Cell :=
  { Cell.reset with
    id := { CellId'.reset with group := c.id.group, leader := c.id.leader, present := true, lastTest := hc }
    arr := { Arr.reset with orbit := c.arr.orbit }, out := c.out, router := c.router }

/-- R455: the image sections that target cell `g`. -/
def State.imagesFor (s : State) (g : CellId) : List Sect :=
  (s.flash.images s.boot.slot).filter fun x => x.type != 0x13 && s.targets x g

/-- R37, R455: steps 4 to 6 for a cell that passed its self-test and whose sections hash correctly. DOWN clears, unless another member of its
group is in reset; an unformed group's stays clear (R456). -/
def State.reloadCell (s : State) (g : CellId) : State :=
  let b := s.flash.section' s.boot.slot
  let s1 := s.updCell g fun c =>
    let c1 := (c.afterReset s.clk.hc).load (b 2) (b 0xA)
    ((s.imagesFor g).foldl (fun c x => c.loadImage x (s.flash.content s.boot.slot x)) c1).startFw s.clk.cc
  let x := s1.group (s1.cell g).id.group.toNat
  s1.setDown g (x.formed && x.orbit.any fun m => s1.cellDown m)

/-- R456: the group of cell `g` becomes unformed, and the commands held for it complete, but for those that a reset or a mark has ended. -/
def State.unform (s : State) (g : CellId) : State :=
  let n := (s.cell g).id.group.toNat
  let s1 := s.updCell g fun c => { c with id := { c.id with dead := true } }
  if n = 0x7F then s1
  else
    let s2 := { s1 with groups := s1.groups.upd .reset n fun x => { x with formed := false, down := false } }
    let s3 := ((s2.heldFor n).filter fun c => !c.over).foldl (fun s c => s.completeBare c stUnformed n s.time.track.toNat) s2
    s3.raiseHub mechSelftest actUnformed 5 9 g.toNat 0 0 none

/-- R455, R456: the running reset of cell `g` ends, once what it had sent has been delivered; `pass` is the outcome of its self-test. With none running
nothing happens. -/
def execCellResetDone (g : CellId) (pass : Bool) (s : State) : Out :=
  let i := (s.cell g).id
  if !s.dispOn || i.inReset.isNone || !i.admitted || i.dead || (s.cell g).pil.remotes.any Remote.onWay then .next s
  else if pass && (s.flash.streamFail s.boot.slot (s.imagesFor g)).isNone then .next (s.reloadCell g)
  else .next (s.unform g)

/-! The rotating self-test (R448). -/

/-- R448: whether cell `g` may be tested: at most one member of a group at a time, and cells of no group one after another. A group that is not
formed is like a formed one here. -/
def State.testable (s : State) (g : CellId) : Bool :=
  let c := s.cell g
  c.id.present && c.id.inReset.isNone && c.id.selfTest.isNone && c.rings.isEmpty && c.pil.mode != .kernel
    && !s.cells.any fun e => e.2.id.group == c.id.group && e.2.id.selfTest.isSome

/-- R448: the self-test of an eligible cell begins. On another nothing happens. -/
def execSelftest (g : CellId) (s : State) : Out :=
  if s.dispOn && s.testable g then
    .next (s.updCell g fun c => { c with id := { c.id with selfTest := some s.clk.hc } })
  else .next s

/-- R448: a self-test ends after 120 µs, and rings that waited for it are sent; one that failed resets the cell. Before that nothing happens. -/
def execSelftestDone (g : CellId) (pass : Bool) (s : State) : Out :=
  match (s.cell g).id.selfTest with
  | none => .next s
  | some t =>
    if s.dispOn && t + 216000 ≤ s.clk.hc then
      .next ((s.updCell g fun c =>
        let c1 := { c with id := { c.id with selfTest := none, lastTest := s.clk.hc } }
        if pass then c1 else c1.enterReset 5).ringsAfterTest g)
    else .next s

/-! Safe stop (R446). -/

/-- R446: every cell is held in reset. -/
def State.holdCells (s : State) : State :=
  (List.range 256).foldl (fun s n => s.updCell (BitVec.ofNat 8 n) fun c => c.enterReset 0) s

/-- R446: a PCIe port held in Detect. -/
def PciPort.detect (x : PciPort) (hc : Nat) : PciPort :=
  if x.up then { x with up := false, speed := 0, width := 0, downAt := hc, st := 0, agreed := 0 } else x

/-- R446: an optical port whose lasers are off. -/
def OptPort.dark (x : OptPort) : OptPort := { x with up := false, linked := false, width := 0 }

/-- R446: a hub lockstep mismatch, or an uncorrectable error in hub memory, stops the hub: ports in Detect, lasers off, cells in reset,
SAFESTOP set, one record kept. It ends a freeze. -/
def execSafeStop (memory : Bool) (s : State) : Out :=
  if !s.hubOn then .next s
  else
    let r : ErrRec :=
      { mech := if memory then mechSram else mechHubLockstep, action := actSafeStop, cls := if memory then 1 else 4, cell := none,
        engine := 9, code := 0, unit := 0, addr := 0, cmd := none }
    let s1 : State :=
    { s with
      ports := s.ports.map fun e => (e.1, e.2.detect s.clk.hc)
      opt := { s.opt with ports := s.opt.ports.map fun e => (e.1, e.2.dark) }
      safe := { s.safe with safestop := true } }
    let s2 := ((s1.takeArb s1.clk.hc).keepRec r s1.disp.arbSeq (s1.arbStamp s1.clk.hc)).holdCells
    .next { s2 with clk := { s2.clk with stopped := true, frozen := false } }

end Sys2Proof.Machine
end

