-- ==== Sys2Proof/Machine/PassEngine.lean ====
section
/-! DEFINITION. The commands of the pass engine (R93 to R124): start, step, commit, the arrival of orbit totals, the stall limit, and the
writes of ARR_CTL. What the engine does in each cc is `State.passMoment`; a command lets time run to its event. -/

namespace Sys2Proof.Machine

/-- R122: the oldest packet of totals on its way to the cell arrives. A cell in reset discards it. With none on its way nothing
happens. -/
def execOrbitPacket (g : CellId) (s : State) : Out :=
  if !s.clk.runs then .next s
  else
    match takeOrbit g (fun k => k.rows != 0) s.orbit with
    | none => .next s
    | some (k, rest) =>
      let s1 := { s with orbit := rest }
      if !s.live g then .next s1
      else if 4 ≤ (s.cell g).arr.inbox.length then
        .next (s1.updCell g fun c => { c with arr := { c.arr with lost := c.arr.lost ++ [k] } })
      else
        .next (s1.updCell g fun c =>
          ({ c with arr := { c.arr with inbox := c.arr.inbox ++ [k] } } : Cell).drainInbox s.clk.cc 5)

/-- R99, R109: the oldest queued pass begins, in the cc of its first read. With none that may begin nothing happens, but that HOLD
shows (R459). -/
def execPassStart (g : CellId) (s : State) : Out :=
  let a := (s.cell g).arr
  if !s.live g then .next s
  else
    match a.startable with
    | some (_, p) =>
      let t := a.startCc p - p.desc.lead
      .next (if s.clk.cc < t then s.until t else s.passStart g)
    | none =>
      match a.findPass fun p => p.stage == .queued with
      | some _ => .next (if a.hold && a.stepper.isNone then s.updCell g Cell.showHold else s)
      | none => .next s

/-- R105, R107: mark the failures that strike the next step. -/
def Cell.upsetStep (c : Cell) (i : Nat) (p : Pass) (u : StepUpset) : Cell := c.setPass i { p with upset := some u }

/-- R96 to R98: time runs to the next broadcast of the stepping pass, whose step is done in that cc. Where no slice stands in the feed
queue the pass bubbles. With no pass stepping nothing happens. -/
def execPassStep (g : CellId) (upset : StepUpset) (s : State) : Out :=
  match (s.cell g).arr.stepper with
  | none => .next s
  | some (i, p) =>
    if !s.live g then .next s
    else
      let s1 := (s.updCell g fun c => c.upsetStep i p upset).readStep g
      match (s1.cell g).arr.stepper with
      | none => .next s1
      | some (_, q) =>
        let next := match q.ready with | some r => some r.at' | none => (s1.cell g).broadcastAt q
        .next (match next with | some b => s1.until b | none => s1.untilThen q.due fun s => s.bubbleMoment g)

/-- R97: the bubble and wait count reaches ARR_STALL_LIMIT: the pass aborts with cause STALL. With no pass bubbling or waiting
nothing happens. -/
def execPassStallLimit (g : CellId) (s : State) : Out :=
  let c := s.cell g
  match c.arr.findPass fun p => (p.stage == .stepping || p.waits) && c.stallsOut p with
  | some (_, p) => .next (if s.live g then s.untilThen (p.limitAt c.arr.stallLimit.toNat) fun s => s.limitMoment g else s)
  | none => .next s

/-- R99, R108: the oldest pass, staged and with all its totals, commits: time runs to the cc after its commit. With
none ready nothing happens. -/
def execPassCommit (g : CellId) (s : State) : Out :=
  match (s.cell g).arr.passes with
  | [] => .next s
  | p :: _ =>
    if !s.live g then .next s
    else if p.stage == .committing then .next (s.until (p.cend + 1))
    else
      match (s.cell g).arr.commitAt with
      | none => .next s
      | some t => .next (s.until (max t (s.clk.cc + 1) + p.desc.commitCc))

/-! ARR_CTL (R102, R109, R110). -/

/-- R32, R102: a write of ARR_CTL by cell `g`'s own pilot: user code raises PRIV. -/
def State.arrCtlWrite (s : State) (g : CellId) (f : Cell → Cell) : State :=
  if !s.live g then s else if !(s.cell g).exc.pl then s.deny g xPriv true 0xFFFF8400 else s.updCell g f

/-- R32, R102, R110: ARR_CTL.ABORT: the current pass aborts with cause SUPERVISOR; with none outstanding nothing happens. -/
def execArrCtlAbort (g : CellId) (s : State) : Out := .next (s.arrCtlWrite g fun c => c.abortPass abSupervisor s.clk.cc)

/-- R32, R102, R109: ARR_CTL.HOLD. -/
def execArrCtlHold (g : CellId) (hold : Bool) (s : State) : Out := .next (s.arrCtlWrite g fun c => c.setHold hold)

end Sys2Proof.Machine
end

