-- ==== Sys2Proof/Machine/Mover.lean ====
section
/-! DEFINITION. The mover (R277 to R287, R445): MVISS, the start and transfer of its four commands, and their completion. -/

namespace Sys2Proof.Machine

/-! Fields of a command (R280). -/

/-- A doubleword of the command. -/
def MovCmd.w (m : MovCmd) (i : Nat) : Nat := (m.dw.getD i 0).toNat

/-- R280: OP. -/
def MovCmd.op (m : MovCmd) : Nat := bits (m.w 0) 0 4
/-- R280: SCOPE. -/
def MovCmd.scope (m : MovCmd) : Nat := bits (m.w 0) 4 2
/-- R280: SHINT. -/
def MovCmd.shint (m : MovCmd) : Nat := bits (m.w 0) 6 2
/-- R280: DHINT. -/
def MovCmd.dhint (m : MovCmd) : Nat := bits (m.w 0) 8 2
/-- R280: ORD. -/
def MovCmd.ord (m : MovCmd) : Bool := bit (m.w 0) 10
/-- R280: LEN. -/
def MovCmd.len (m : MovCmd) : Nat := bits (m.w 0) 32 32
/-- R280: SRC. -/
def MovCmd.src (m : MovCmd) : Nat := bits (m.w 1) 0 52
/-- R280: DST. -/
def MovCmd.dst (m : MovCmd) : Nat := bits (m.w 2) 0 52
/-- R280: ROWS. -/
def MovCmd.rows (m : MovCmd) : Nat := bits (m.w 3) 0 16
/-- R280: SSTR. -/
def MovCmd.sstr (m : MovCmd) : Int := sbits (m.w 3) 16 24
/-- R280: DSTR. -/
def MovCmd.dstr (m : MovCmd) : Int := sbits (m.w 3) 40 24

/-- Whether OP is a two-dimensional form. -/
def MovCmd.twoD (m : MovCmd) : Bool := m.op == 2 || m.op == 3

/-- Whether OP is a fill. -/
def MovCmd.fills (m : MovCmd) : Bool := m.op == 1 || m.op == 3

/-- Rows moved; one in a 1D form. -/
def MovCmd.nrows (m : MovCmd) : Nat := if m.twoD then m.rows else 1

/-- R283: a command whose byte count is 0. -/
def MovCmd.empty (m : MovCmd) : Bool := m.op ≤ 3 && m.len * m.nrows == 0

/-- R285: reserved OP or bit, or ROWS in a 1D form. Strides that a form does not use are ignored (log 14). -/
def MovCmd.formatBad (m : MovCmd) : Bool :=
  4 ≤ m.op || bits (m.w 0) 11 21 != 0 || bits (m.w 2) 52 12 != 0 || (!m.fills && bits (m.w 1) 52 12 != 0)
    || (!m.twoD && m.rows != 0)

/-! Regions (R282). -/

/-- R282: the region of an address: local store, window, a slice, HBM. -/
def Place.region (pl : Place) : Option (Nat × Nat) :=
  match pl with
  | .ls _ => some (0, 0)
  | .win _ => some (1, 0)
  | .slice h _ => some (2, h.toNat)
  | .hbm _ => some (3, 0)
  | _ => none

/-- First byte of row `q` of a range. -/
def rowStart (base : Nat) (str : Int) (q : Nat) : Int := base + q * str

/-- R282: the region of one row, if all its bytes lie in one. -/
def State.rowRegion (s : State) (g : CellId) (lo : Int) (len : Nat) : Option (Nat × Nat) :=
  if lo < 0 then none
  else
    let a := (place s.hbmBytes g lo.toNat).region
    if a == (place s.hbmBytes g (lo.toNat + len - 1)).region then a else none

/-- R285: the error of a range: HOLE, or REGION; 0 for none. -/
def State.rangeError (s : State) (g : CellId) (base : Nat) (str : Int) (rows len : Nat) : Nat :=
  let rs := (List.range rows).map fun q => s.rowRegion g (rowStart base str q) len
  if rs.any Option.isNone then 2
  else if rs.any fun r => r != rs.headD none then 3
  else 0

/-- R231: whether a range touches the refuge region. -/
def touchesRefuge (base : Nat) (str : Int) (rows len : Nat) : Bool :=
  (List.range rows).any fun q =>
    let lo := rowStart base str q
    lo < 0x40000 && 0x3F000 < lo + len

/-- R284, R285: the error found at start and the first byte of what failed; code 0 for none. Of several the order ECC, FORMAT, HOLE, REGION, PRIV,
each with the source first, is the model's choice (log 71). -/
def State.startError (s : State) (g : CellId) (m : MovCmd) : Nat × Nat :=
  if m.bad then (5, m.addr)
  else if m.empty then (0, 0)
  else if m.formatBad then (1, m.addr)
  else
    let es := if m.fills then 0 else s.rangeError g m.src m.sstr m.nrows m.len
    let ed := s.rangeError g m.dst m.dstr m.nrows m.len
    if es = 2 then (2, m.src)
    else if ed = 2 then (2, m.dst)
    else if es = 3 then (3, m.src)
    else if ed = 3 then (3, m.dst)
    else if m.user && !m.fills && touchesRefuge m.src m.sstr m.nrows m.len then (4, m.src)
    else if m.user && (touchesRefuge m.dst m.dstr m.nrows m.len || (place s.hbmBytes g m.dst).region == some (1, 0)) then (4, m.dst)
    else (0, 0)

/-! Units and transfers (R281). -/

/-- A 64-byte unit: where its bytes come from (unless it fills) and go to. -/
structure MovUnit where
  src : Nat
  dst : Nat
  len : Nat
deriving DecidableEq, Repr

/-- R281: the units of a row from byte `i` on, split at 64-byte boundaries of the side that `al` gives. -/
def rowUnits (src dst al : Nat) (i len : Nat) : Nat → List MovUnit
  | 0 => []
  | fuel + 1 =>
    if len ≤ i then []
    else
      let n := min (64 - (al + i) % 64) (len - i)
      { src := src + i, dst := dst + i, len := n } :: rowUnits src dst al (i + n) len fuel

/-- R281: all units, rows ascending, bytes ascending. A fill is split by its destination, a copy by its source. -/
def MovCmd.units (m : MovCmd) : List MovUnit :=
  (List.range m.nrows).flatMap fun q =>
    let sr := (rowStart m.src m.sstr q).toNat
    let d := (rowStart m.dst m.dstr q).toNat
    rowUnits sr d (if m.fills then d else sr) 0 m.len (m.len / 64 + 2)

/-- R256, R257: a read of HBM by cell `g`'s mover, under a hint. -/
def State.moverHbm (s : State) (g : CellId) (a n hint : Nat) : State × Fetched :=
  let num := a / 256
  s.cacheRead g 6 a n true
    (fun c => if hint = 3 then c.drop (· == num) else if hint = 2 then (c.touch num).keep num else c.touch num)
    (if hint = 1 || hint = 3 then none else some (hint == 2))

/-- R282, R293: a read by the mover. Own stores are read as visible before this cc. -/
def State.moverRead (s : State) (g : CellId) (a n hint : Nat) : State × Fetched :=
  let pl := place s.hbmBytes g a
  match pl with
  | .hbm o => s.moverHbm g o n hint
  | _ =>
    if s.badHome g pl n then (s, .ecc)
    else
      match pl.own g with
      | some (st, o) => (s.correctAt g pl n, .data (s.readOwn g st o n s.clk.cc none))
      | none => (s.correctAt g pl n, .data (s.readHome g pl n))

/-- Lines that `n` bytes at HBM offset `a` meet. -/
def lineMet (a n : Nat) (num : Nat) : Bool := num * 256 < a + n && a < num * 256 + 256

/-- R457: whether a place lies in the slice of a cell in reset, of which `g` is not the owner. -/
def State.sliceDown (s : State) (g : CellId) (pl : Place) : Bool :=
  match pl with
  | .slice h _ => h != g && s.cellDown h
  | _ => false

/-- R146, R252, R256, R257, R442, R457: a write by the mover under a hint; one to a cell in reset is lost, and its record marks the command. -/
def State.moverWrite (s : State) (g : CellId) (a : Nat) (bs : List Byte) (hint : Nat) : State :=
  let pl := place s.hbmBytes g a
  let s1 := if s.sliceDown g pl then s.raise g mechFlit actCommand 2 6 0 a else s.writeFourth g 6 pl bs
  match pl with
  | .hbm o =>
    if hint = 3 then { s1 with hbm := s1.hbm.updCache (tileOf g) fun c => c.drop (lineMet o bs.length) }
    else if hint = 2 then
      { s1 with hbm := s1.hbm.updCache (tileOf g) fun c =>
          (c.lines.filter fun l => lineMet o bs.length l.num).foldl (fun c l => c.keep l.num) c }
    else s1
  | _ => s1

/-- R272: whether a write of `n` bytes at `a` meets a fenced pseudo-channel. -/
def State.writeFenced (s : State) (g : CellId) (a n : Nat) : Bool :=
  match place s.hbmBytes g a, place s.hbmBytes g (a + n - 1) with
  | .hbm o, .hbm p => s.hbm.fencedAt o || s.hbm.fencedAt p
  | _, _ => false

/-- What the read side of a transfer has found: the state, the writes to make, and the error that ended it. -/
structure MovRun where
  s : State
  out : List (Nat × List Byte)
  err : Nat
  addr : Nat

/-- R280, R281: the bytes of one unit: read, or made from the pattern; an error ends the transfer with the units before it. -/
def MovRun.unit (r : MovRun) (g : CellId) (m : MovCmd) (u : MovUnit) : MovRun :=
  if r.err ≠ 0 then r
  else if m.fills then
    if r.s.writeFenced g u.dst u.len then { r with err := 6, addr := u.dst }
    else
      let bs := (List.range u.len).map fun i => BitVec.ofNat 8 (bits (m.w 1) (8 * ((u.dst + i) % 8)) 8)
      { r with out := r.out ++ [(u.dst, bs)] }
  else
    let x := r.s.moverRead g u.src u.len m.shint
    match x.2 with
    | .refused => { r with s := x.1, err := 6, addr := u.src }
    | .ecc => { r with s := x.1, err := 5, addr := u.src }
    | .data bs =>
      if r.s.writeFenced g u.dst u.len then { r with s := x.1, err := 6, addr := u.dst }
      else { r with s := x.1, out := r.out ++ [(u.dst, bs)] }

/-- R281: whether destination address `a` of a copy also is one of its source bytes. -/
def MovCmd.overlaps (m : MovCmd) (a : Nat) : Bool :=
  !m.fills && (List.range m.nrows).any fun q =>
    let lo := rowStart m.src m.sstr q
    lo ≤ a && a < lo + m.len

/-- R281: the bytes a unit writes: an overlapped destination byte receives some byte of the source bytes read, which one being
free. -/
def MovCmd.unitBytes (m : MovCmd) (pool : List Byte) (fresh : Nat) (u : Nat × List Byte) : List Byte :=
  (List.range u.2.length).map fun i =>
    if m.overlaps (u.1 + i) then pool.getD (Sys2Proof.Config.overlapByte fresh (u.1 + i) % pool.length) 0 else u.2.getD i 0

/-- R284 to R286: an error is recorded: the first one since launch, or MORE. After a W1C of VALID the next error is recorded as a first one
(log 71). -/
def Mover.fail (v : Mover) (code addr ticket : Nat) : Mover :=
  if v.valid then { v with more := true }
  else { v with code := BitVec.ofNat 4 code, valid := true, ticket := BitVec.ofNat 32 ticket, errAddr := BitVec.ofNat 52 addr }

/-- R440, R452: the mechanism that detects a storage error at `a`. -/
def State.storeMech (s : State) (g : CellId) (a : Nat) : Byte := match place s.hbmBytes g a with | .hbm _ => mechHbm | _ => mechSram

/-- R440: an uncorrectable error met by the mover marks the command. -/
def State.movFail (s : State) (g : CellId) (code addr ticket : Nat) : State :=
  let s1 := if code = 5 then s.raise g (s.storeMech g addr) actCommand 1 6 5 addr else s
  s1.updCell g fun c => { c with mov := c.mov.fail code addr ticket }

/-- R257: whether every line of a source that lies in HBM is in the tile's cache. -/
def State.movHits (s : State) (g : CellId) (m : MovCmd) : Bool :=
  m.units.all fun u =>
    match place s.hbmBytes g u.src with
    | .hbm o => ((s.hbm.cache (tileOf g)).find (o / 256)).isSome
    | _ => true

/-- R287: what the source of a copy asks for: the delay of its first byte and the completion wait, in cc; none in the own regions. -/
def State.movFrom (s : State) (g : CellId) (m : MovCmd) : Option (Nat × Nat) :=
  match place s.hbmBytes g m.src with
  | .slice h _ => if h = g then none else some (latCc g h + 6, latCc g h)
  | .hbm _ => some (if s.movHits g m then 36 else 292, 1)
  | _ => none

/-- R287: what a destination asks for. -/
def State.movTo (s : State) (g : CellId) (m : MovCmd) : Option (Nat × Nat) :=
  match place s.hbmBytes g m.dst with
  | .slice h _ => if h = g then none else some (latCc g h + 6, latCc g h)
  | .hbm _ => some (6, 146)
  | _ => none

/-- R287, R17: cc of a transfer at 64 bytes an hc. -/
def Clock.linkCc (c : Clock) (n : Nat) : Nat := ceilDiv (ceilDiv n 64 * 128) c.d.toNat

/-- R287: the times of a command, in cc: to the first byte, of the transfer, and to completion after it. -/
structure MovDelay where
  first : Nat
  move : Nat
  wait : Nat

/-- No time: nothing moves. -/
def MovDelay.none' : MovDelay := { first := 0, move := 0, wait := 0 }

/-- R287: the whole time of a command. -/
def MovDelay.total (d : MovDelay) : Nat := d.first + d.move + d.wait

/-- R287: first-byte delay, transfer and completion wait of a command. A copy between two places outside the cell takes the longer delay and the
longer wait (log 20). -/
def State.movDelay (s : State) (g : CellId) (m : MovCmd) : MovDelay :=
  let n := m.len * m.nrows
  let far (x : Nat × Nat) : MovDelay := { first := x.1, move := s.clk.linkCc n, wait := x.2 }
  if m.empty then .none'
  else
    match (if m.fills then none else s.movFrom g m), s.movTo g m with
    | none, none => { first := if m.fills then 4 else 6, move := ceilDiv n 512, wait := 1 }
    | some x, none => far x
    | none, some y => far y
    | some x, some y => far (max x.1 y.1, max x.2 y.2)

/-- R281, R284: the transfer of a command. -/
def State.transfer (s : State) (g : CellId) (m : MovCmd) (units : List MovUnit) : State :=
  let r := units.foldl (fun r u => MovRun.unit r g m u) { s := s, out := [], err := 0, addr := 0 }
  let pool := r.out.flatMap Prod.snd
  let s1 := r.out.foldl (fun s u => s.moverWrite g u.1 (m.unitBytes pool s.fresh u) m.dhint) r.s
  let s2 := if m.fills then s1 else { s1 with fresh := s1.fresh + 1 }
  if r.err = 0 then s2 else s2.movFail g r.err r.addr m.ticket

/-- R445: the address generators disagree after `n` units: the mover stops, and every command it holds completes. -/
def State.stopMover (s : State) (g : CellId) : State :=
  (s.raise g mechMover actCommand 4 6 0 0).updCell g fun c =>
    Cell.engineIdle { c with mov := { c.mov with cmds := [], stopped := true } } 6

/-- R278: the oldest command not started, with those before it, if none of these holds it back. -/
def Mover.startable (v : Mover) : Option MovCmd :=
  match v.cmds.find? fun m => !m.started with
  | none => none
  | some m =>
    let before := v.cmds.filter fun x => x.ticket < m.ticket
    if 4 ≤ (before.filter MovCmd.started).length then none
    else if (m.ord || m.empty) && !before.isEmpty then none
    else if before.any fun x => x.ord || x.empty then none
    else some m

/-- Replace a command. -/
def Mover.setCmd (v : Mover) (m : MovCmd) : Mover := { v with cmds := v.cmds.map fun x => if x.ticket = m.ticket then m else x }

/-- R459: what the mover holds for while it holds commands and moves no unit: a response or an acknowledgement of one that has started, or its
order (log 68). -/
def Cell.movHeld (c : Cell) : Cell :=
  c.engine 6 0 (if c.mov.cmds.any MovCmd.started then 0x1A else if c.mov.cmds.isEmpty then 0 else 0x1C)

/-- R458, R459: the mover over a command that began in cc `t0` and lost its banks to cc `t1`: it reads from then on, and writes from the first byte
on (log 68). -/
def Cell.movSpans (c : Cell) (t0 t1 : Nat) (d : MovDelay) : Cell :=
  (((c.span 6 t0 t1 0x19).span 6 t1 (t1 + d.move) 0).span 6 (t1 + d.first) (t1 + d.first + d.move) 0).movHeld

/-- R278, R281, R284, R445: the oldest waiting command starts, if it is one that `row` takes, and moves its bytes; `stopAfter` is the
number of units after which the address generators disagree. -/
def State.movStart (s : State) (g : CellId) (row : Nat → Bool) (stopAfter : Option Nat) : State :=
  match (s.cell g).mov.startable with
  | none => s.updCell g Cell.movHeld
  | some m =>
    if !s.live g || !row m.op then s
    else
      s.untilThen m.from' fun s1 =>
      let e := s1.startError g m
      let d := if e.1 = 0 then s1.movDelay g m else .none'
      let mark (s2 : State) : State :=
        s2.updCell g fun c =>
          ({ c with mov := c.mov.setCmd { m with started := true, from' := s2.clk.cc + d.total, since := s2.clk.hc } } : Cell).movSpans s1.clk.cc s2.clk.cc d
      if e.1 ≠ 0 then (mark s1).movFail g e.1 e.2 m.ticket
      else if m.empty then mark s1
      else
        match stopAfter with
        | none => mark (s1.transfer g m m.units)
        | some n => (mark (s1.transfer g m (m.units.take n))).stopMover g

/-- R280, R281: COPY; it also takes a command of reserved OP, which fails with FORMAT. -/
def execCopy (g : CellId) (stopAfter : Option Nat) (s : State) : Out :=
  .next (s.movStart g (fun op => op == 0 || 4 ≤ op) stopAfter)

/-- R280: FILL. -/
def execFill (g : CellId) (stopAfter : Option Nat) (s : State) : Out := .next (s.movStart g (fun op => op == 1) stopAfter)

/-- R280: COPY2D. -/
def execCopy2d (g : CellId) (stopAfter : Option Nat) (s : State) : Out := .next (s.movStart g (fun op => op == 2) stopAfter)

/-- R280: FILL2D. -/
def execFill2d (g : CellId) (stopAfter : Option Nat) (s : State) : Out := .next (s.movStart g (fun op => op == 3) stopAfter)

/-- R399: whether the descriptor at `a` is cell `g`'s to post, and a PUT. -/
def State.isPut (s : State) (g : CellId) (a : Nat) : Bool :=
  match place s.hbmBytes g a with
  | .slice h o => h == g && a % 64 == 0 && (s.cell g).slice.readN o 8 % 16 == 2
  | _ => false

/-- R399: whether a request is a store to LNK_PGPOST that is on its way, and posts a PUT. -/
def State.postsPut (s : State) (g : CellId) (r : Remote) : Bool :=
  !r.load && !r.performed && !r.lost && place s.hbmBytes g r.addr == .hubReg 0x61008 && s.isPut g (leNat r.bytes % 2 ^ 52)

/-- R405: whether a cell has a PUT without STATUS: its post is on its way, or the hub has not read it, or the operation runs (log 15). -/
def State.putsOut (s : State) (g : CellId) : Bool :=
  ((s.cell g).pil.remotes.any fun r => s.postsPut g r) || (s.opt.posts.any fun x => x.cell == g && s.isPut g x.addr)
    || s.opt.ops.any fun x => x.cell == g && x.put

/-- R279: the started command of a ticket completes; one of chain scope waits for the chain ordering point. With no such command
nothing happens. -/
def execMoverComplete (g : CellId) (ticket : Nat) (s : State) : Out :=
  match (s.cell g).mov.cmds.find? fun m => m.ticket == ticket && m.started with
  | none => .next s
  | some m =>
    if !s.live g || (m.scope = 3 && s.putsOut g) then .next s
    else
      .next (s.untilThen m.from' fun s => s.updCell g fun c => Cell.movHeld { c with mov := { c.mov with cmds := c.mov.cmds.filter fun x => x.ticket != ticket } })

/-- R188, R277, R445: MVISS: the next ticket, and the command as it stands at the end of the issue cc. -/
def execMviss (g : CellId) (f : KFmt) (s : State) : Out :=
  let u := { usesS [f.ra] f.rd 1 with mem := true }
  .next (s.issue g u (encK engOp 0x04 f) (kIllegal f true true false) noPort fun s =>
    let c := s.cell g
    let a := (c.pil.readS f.ra).toNat
    if 16 ≤ c.mov.cmds.length then .stall 0x09
    else
      match engFault (!c.exc.pl) a 32 32 with
      | some code => .trap code false false (w64 a) 0
      | none =>
        let m : MovCmd :=
          { ticket := c.mov.issued + 1, addr := a, dw := wordsOf 4 (s.readOwn g .localStore a 32 (s.clk.cc + 1) none),
            user := !c.exc.pl, bad := c.ls.anyBad sramUnit a 32, from' := s.clk.cc + 4, started := false }
        .ok ((s.correctAt g (.ls a) 32).updCell g fun c => Cell.movHeld
          { c with mov := { c.mov with issued := c.mov.issued + 1, cmds := if c.mov.stopped then c.mov.cmds else c.mov.cmds ++ [m] }
                   pil := c.pil.result false f.rd (BitVec.ofNat 128 (c.mov.issued + 1)) 1 s.clk.cc }) 1 none 0)

end Sys2Proof.Machine
end

