-- ==== Sys2Proof/Machine/Stops.lean ====
section
/-! DEFINITION. Survey, Eclipse, STOP_NOW, release and the observation window (R461, R471 to R481): the commands that host packets and
register writes bring, and the events of track time. -/

namespace Sys2Proof.Machine

/-- R31, R32, R315: whether a register write of an initiator takes place: a host's through its open BAR2, or supervisor code's of a cell
that runs. -/
def State.writes (s : State) (by' : Initiator) : Bool :=
  match by' with
  | .host p => s.barOpen p
  | .pilot g => s.live g && (s.cell g).exc.pl

/-- R26: the address at which a pilot of cell `h` finds offset `off` of cell `g`'s register block: its own block through its alias. -/
def regAddr (h g : CellId) (off : Nat) : Nat := if h = g then 0xFFFF8000 + off else 0xF0800000 + g.toNat * 0x8000 + off

/-- R32, R315: a register write of its own command: it takes place, or a user pilot's raises PRIV at the address that `a` gives. -/
def State.byWrite (s : State) (by' : Initiator) (a : CellId → Nat) (f : State → State) : State :=
  if s.writes by' then f s
  else
    match by' with
    | .host _ => s
    | .pilot h => if (s.cell h).exc.pl then s else s.deny h xPriv true (a h)

/-- The same of a hub register. -/
def State.byHub (s : State) (by' : Initiator) (off : Nat) (f : State → State) : State := s.byWrite by' (fun _ => 0xF0000000 + off) f

/-! Counters (R461, R462). -/

/-- R461, R462: a write of TRC_CNT_CTL.SAMPLE. -/
def execSample (g : CellId) (by' : Initiator) (s : State) : Out :=
  .next (s.byWrite by' (fun h => regAddr h g 0x1000) fun s => s.updCell g fun c => { c with trc := c.trc.sample s.clk.cc })

/-- R461: a write of TRC_SELk. -/
def execTrcSelWrite (g : CellId) (by' : Initiator) (k : BitVec 2) (v : Word64) (s : State) : Out :=
  .next (s.byWrite by' (fun h => regAddr h g (0x1300 + 8 * k.toNat)) fun s =>
    s.updCell g fun c => { c with trc := c.trc.selWrite k.toNat v.toNat })

/-- R316, R461: a write of TRC_MARK by supervisor code; a host's is ignored and counted. -/
def execMark (g : CellId) (by' : Initiator) (v : Word64) (s : State) : Out :=
  .next (s.byWrite by' (fun h => regAddr h g 0x1380) fun s =>
    match by' with
    | .host p => s.wdrop p
    | .pilot _ => s.mark g v)

/-! Survey (R471). -/

/-- R471: TRC_SURVEY.GO. -/
def State.surveyGo (s : State) : State := if s.stops.survey.isNone && s.stops.st == 0 then s.startSurvey none else s

/-- R471: a write of TRC_SURVEY.GO; it starts a Survey while BUSY and the Eclipse state are clear. -/
def execSurvey (by' : Initiator) (s : State) : Out := .next (s.byHub by' 0x90020 State.surveyGo)

/-! Eclipse (R475 to R480). -/

/-- R468: an ECLIPSE record. -/
def State.eclipseLog (s : State) (kind : Nat) (arb : Word32) (stamp : Word64) : State :=
  s.logAt stamp 0x0E 0xF 0 arb.toNat kind s.stops.tick (s.stops.chan.setWidth 64)

/-- R339, R468: the same of a packet. -/
def State.eclipseLogCmd (s : State) (kind : Nat) (c : Cmd) : State := s.eclipseLog kind (s.cmdArb c) c.admittedAt

/-- R339, R468, R478: an ECLIPSE record of a register write, which the arbiter admits. -/
def State.eclipseLogArb (s : State) (kind : Nat) : State := s.logArb 0x0E 0xF 0 kind s.stops.tick (s.stops.chan.setWidth 64)

/-! The snapshot of a stop. -/

/-- R474, R480: the freeze offset of each cell; 0 outside STOP_NOW. -/
def State.setFrz (s : State) (f : Nat → Nat) : State :=
  (List.range 256).foldl (fun s n => s.updCell (BitVec.ofNat 8 n) fun c =>
    if c.id.frz = BitVec.ofNat 16 (f n) then c else { c with id := { c.id with frz := BitVec.ofNat 16 (f n) } }) s

/-- R477, R480: the snapshot with header `h` is written of the module as it stands still, and its ECLIPSE records: `rec` with arbiter number
`arb` and stamp `stamp`, and 6 once it is written. -/
def State.stopSnap (s : State) (h : SnapHead) (rec : Nat) (arb : Word32) (stamp : Word64) : State :=
  let ch := s.chanState
  let s1 : State := { s with stops := { s.stops with cut := none, chan := BitVec.ofNat 32 ch.length }, fresh := s.fresh + 1 }
  let s2 := (s1.eclipseLog rec arb stamp).writeSnapshot h ch
  if s2.obs.en then State.eclipseLog { s2 with stops := { s2.stops with snapdone := true } } 6 0 s2.time.track else s2

/-- R477: the snapshot of a scheduled Eclipse that is still to be written, if any. -/
def State.takeCut (s : State) : State :=
  match s.stops.cut with
  | some h => (s.setFrz fun _ => 0).stopSnap h 3 0 h.t0
  | none => s

/-- R481: DETAIL of an ECLIPSE packet: TRC_ECL_STAT[15:0]. -/
def State.eclipseDetail (s : State) : Nat := ((s.trcReg 0x30).getD 0) % 2 ^ 16

/-- R475: reserved bits, and fields that must be 0, of an ECLIPSE payload of operation `op`. -/
def eclipseBad (dw : List Word64) (len op : Nat) (frozen : Bool) : Bool :=
  let d (i : Nat) : Nat := (dw.getD i 0).toNat
  len ≠ 32 || d 0 ≠ op || op = 0 || d 3 ≠ 0
    || (if op = 1 then (d 2 ≠ 0 && d 2 ≤ d 1) || frozen else d 1 ≠ 0 || d 2 ≠ 0)

/-- R475: the OP of an ECLIPSE packet; 0 where its payload is not 32 bytes. -/
def Cmd.eclipseOp (c : Cmd) : Nat := if c.payload.length = 32 then bits ((bytesDw 4 c.payload).getD 0 0).toNat 0 2 else 0

/-- R475: the oldest admitted ECLIPSE packet whose OP `p` marks. -/
def State.eclipseCmd (s : State) (p : Nat → Bool) : Option Cmd :=
  if s.hubOn then s.disp.ready fun c => hdrOpcode c.hdr == 0x14 && p c.eclipseOp else none

/-- R475, R476: an ECLIPSE packet completes with OK, in a frozen module after the release. -/
def State.eclipseOk (s : State) (c : Cmd) : State := s.conclude c stOk s.eclipseDetail

/-- R475: a scheduled Eclipse ends. -/
def State.eclipseDrop (s : State) : State := { s with stops := { s.stops with st := 0 } }

/-- R475: the oldest admitted SCHEDULE, or a packet whose OP is reserved or whose payload has a wrong length. With none nothing
happens. -/
def execEclipseSchedule (s : State) : Out :=
  match s.eclipseCmd fun op => op = 1 || op = 0 with
  | none => .next s
  | some c =>
    let dw := bytesDw 4 c.payload
    let t := c.admittedAt.toNat
    if eclipseBad dw c.payload.length c.eclipseOp (s.stops.st == 2) then .next (s.conclude c stBadHeader 0)
    else if (dw.getD 1 0).toNat < t + 2048 then .next (s.conclude c stLate 0)
    else
      let s1 := { s with stops := { s.stops with st := 1, tick := dw.getD 1 0, rel := dw.getD 2 0 } }
      .next ((s1.eclipseLogCmd 1 c).eclipseOk c)

/-- R475: the oldest admitted CANCEL. With none nothing happens. -/
def execEclipseCancel (s : State) : Out :=
  match s.eclipseCmd fun op => op = 2 with
  | none => .next s
  | some c =>
    if eclipseBad (bytesDw 4 c.payload) c.payload.length 2 false then .next (s.conclude c stBadHeader 0)
    else if s.stops.st = 1 then .next ((s.eclipseDrop.eclipseLogCmd 2 c).eclipseOk c)
    else .next (s.eclipseOk c)

/-! Release (R478). -/

/-- R476, R478: counts that the freeze held move on by `d` hc, so that they go on as if no time had passed. -/
def Cell.shiftHc (c : Cell) (d : Nat) : Cell :=
  { c with id := { c.id with selfTest := c.id.selfTest.map fun t => t + d, lastTest := c.id.lastTest + d,
                             dog := c.id.dog.map fun e => (e.1, e.2 + d) },
           pil := { c.pil with remotes := c.pil.remotes.map fun r => { r with since := r.since + d } } }

/-- R476, R478: the same of the hub: page TIMEOUT counts, and the acknowledgement timers of the ports. -/
def Optics.shiftHc (o : Optics) (d : Nat) : Optics :=
  { o with ops := o.ops.map fun x => { x with posted := x.posted + d }
           ports := o.ports.map fun e => (e.1, { e.2 with fackAt := e.2.fackAt + d }) }

/-- R478: every unit resumes; the rings hand on what arrived. -/
def State.resume (s : State) : State :=
  let s := s.takeCut
  let d := s.clk.hc - s.clk.frozenAt
  let s1 : State :=
    { s with
      clk := { s.clk with frozen := false }
      stops := { s.stops with st := 0 }
      cells := s.cells.map fun e => (e.1, e.2.shiftHc d)
      opt := s.opt.shiftHc d }
  (s1.queues.foldl (fun s e => s.takeRing (BitVec.ofNat 10 e.1)) s1).wakeOptics.portEvents

/-- R478: the oldest admitted RELEASE: it ends a frozen Eclipse. With none nothing happens. -/
def execEclipseRelease (s : State) : Out :=
  match s.eclipseCmd fun op => op = 3 with
  | none => .next s
  | some c =>
    if eclipseBad (bytesDw 4 c.payload) c.payload.length 3 false then .next (s.conclude c stBadHeader 0)
    else if s.stops.st = 2 then .next ((s.resume.eclipseLogCmd 5 c).eclipseOk c)
    else .next (s.eclipseOk c)

/-- R478: a write of TRC_ECL_CTL.RELEASE. -/
def State.eclRelease (s : State) : State := if s.stops.st = 2 then s.resume.eclipseLogArb 5 else s

/-- R481: a write of TRC_ECL_CTL.CANCEL. -/
def State.eclCancel (s : State) : State := if s.stops.st = 1 then s.eclipseDrop.eclipseLogArb 2 else s

/-- R478: a write of TRC_ECL_CTL.RELEASE releases a frozen module; in any other nothing happens. -/
def execTrcEclRelease (by' : Initiator) (s : State) : Out := .next (s.byHub by' 0x90028 State.eclRelease)

/-- R481: a write of TRC_ECL_CTL.CANCEL cancels a scheduled Eclipse; with none nothing happens. -/
def execTrcEclCancel (by' : Initiator) (s : State) : Out := .next (s.byHub by' 0x90028 State.eclCancel)

/-- R478: track time reaches RELTIME of a frozen module. Before that nothing happens. -/
def execReltimeRelease (s : State) : Out :=
  let x := s.stops
  .next (if s.hubOn && x.st == 2 && x.rel != 0 && x.rel ≤ s.time.track then s.resume.eclipseLog 5 0 s.time.track else s)

/-! The stop itself. -/

/-- R476, R477: the end of the tick hc of a scheduled Eclipse, and its snapshot. Before the tick hc nothing happens. -/
def execEclipseTick (s : State) : Out :=
  .next (if s.hubOn && s.stops.st == 1 && s.stops.tick ≤ s.time.track then (s.untilHc (s.clk.hc + 1)).takeCut
    else if s.hubOn then s.takeCut else s)

/-- R480: hc after the hub, from which the stop leaves, at which cell `i` freezes. The bound is R480's, the value free (log 2). -/
def freezeOffset (fresh i : Nat) : Nat := Sys2Proof.Config.freezeOffset fresh i % 41

/-- R480: SMEAR: the greatest of the freeze offsets. -/
def freezeSmear (fresh : Nat) : Nat := (List.range 256).foldl (fun a i => max a (freezeOffset fresh i)) 0

/-- R480: STOP_NOW. The hub freezes in the hc of the write, and the last unit SMEAR hc later; the hc between count as frozen in every unit
(log 82). -/
def State.stopNow (s : State) : State :=
  if s.stops.st = 2 then s
  else
    let m := freezeSmear s.fresh
    let t0 := s.time.track
    let arb := s.disp.arbSeq
    let stamp := s.arbStamp s.clk.hc
    let s1 := State.takeArb { s with stops := { s.stops with tick := t0, rel := 0 } } s.clk.hc
    let s2 := (s1.setFrz fun i => freezeOffset s.fresh i).standStill (s.stopHead 3 t0)
    let s3 := s2.hubTo (s2.clk.hc + m) s2.time.changes.length
    s3.stopSnap { s.stopHead 3 t0 with smear := m, t1 := s3.time.track } 4 arb stamp

/-- R480: a write of TRC_ECL_CTL.NOW; while frozen it is ignored. -/
def execStopNow (by' : Initiator) (s : State) : Out := .next (s.byHub by' 0x90028 State.stopNow)

/-! The observation window (R481). -/

/-- R481: a write of TRC_OBSWIN.ADDR clears READY and starts the read. -/
def State.obswin (s : State) (a : BitVec 46) : State :=
  { s with stops := { s.stops with winReady := false, winBusy := true, winAddr := a } }

/-- R481: a write of TRC_OBSWIN.ADDR. -/
def execObswinRead (by' : Initiator) (a : BitVec 46) (s : State) : Out := .next (s.byHub by' 0x90048 fun s => s.obswin a)

/-- R272, R481: the 64 bytes at a device address, as stored, bypassing the tile caches; zeros in a hole, in a cell in reset, and where a fenced
pseudo-channel refuses the read (log 64). -/
def State.windowBytes (s : State) (a : Nat) : List Byte :=
  match place s.hbmBytes 0 a with
  | .slice g o => if s.cellDown g then List.replicate 64 0 else (s.cell g).slice.readBytes o 64
  | .hbm o => if s.hbm.fencedAt o then List.replicate 64 0 else s.hbm.mem.readBytes o 64
  | _ => List.replicate 64 0

/-- R253, R264, R271, R481: a window read completes and sets READY; like any read it corrects what the code can and counts what it cannot. With none
under way nothing happens. -/
def execObswinReady (s : State) : Out :=
  let x := s.stops
  let a := x.winAddr.toNat * 64
  let done : Stops := { x with winReady := true, winBusy := false, winData := bytesDw 8 (s.windowBytes a) }
  .next (if s.hubOn && x.winBusy then { s.pageMet (place s.hbmBytes 0 a) 64 with stops := done } else s)

end Sys2Proof.Machine
end

