-- ==== Sys2Proof/Machine/OptFrame.lean ====
section
/-! DEFINITION. The arrival of an optical frame (R382 to R386), and what it adds to the channel state of a stop (R477). -/

namespace Sys2Proof.Machine

/-- R477: one flit of class `c` that port `p` receives while the module is frozen: counted, and its entry written. -/
def State.arriveFlit (s : State) (p : LinkId) (f : FlitBits) (c : Nat) : State :=
  let x := s.stops
  let k := x.arrived.get 0 p.toNat
  let e : ChanEntry := { kind := 3, vc := 2 * c + 1, place := p.toNat, index := k, flit := f }
  let s1 := { s with stops := { x with chan := x.chan + 1, arrived := x.arrived.set p.toNat (k + 1) } }
  if !s.obs.en then s1
  else
    let w := s1.snapWrite (chanOff + 8 + 80 * x.chan.toNat) (e.bytes s.time.track)
    let v := w.1.snapWrite chanOff (leBytes (x.chan.toNat + 1) 8)
    { v.1 with stops := { v.1.stops with partial' := v.1.stops.partial' || w.2 || v.2 } }

/-- R382: symbols corrected in a frame, and codewords that do not decode: each corrects at most 15 wrong symbols. -/
def frameCsym (f : Frame) : Nat := (f.wrong.filter fun n => n ≤ 15).sum
def frameUcw (f : Frame) : Nat := (f.wrong.filter fun n => 15 < n).length

/-- R383: the fields of its control word. -/
def frameFseq (f : Frame) : BitVec 12 := f.ctl.extractLsb' 0 12
def frameFack (f : Frame) : BitVec 12 := f.ctl.extractLsb' 12 12
def frameNak (f : Frame) : Bool := f.ctl.getLsbD 24
def frameCrv (f : Frame) : Nat := bits f.ctl.toNat 26 2
def frameCrn (f : Frame) : Nat := bits f.ctl.toNat 28 12

/-- R385: what a good frame in sequence gives the sender of its own direction: credits of the class that CRV names. -/
def OptPort.credit (x : OptPort) (fr : Frame) : OptPort :=
  if frameCrv fr = 3 then x else { x with cls := x.cls.upd .reset (frameCrv fr) fun c => { c with crn := frameCrn fr } }

/-- R385, R444: a flit reaches its class's buffer; `e` says that it is spoilt, and whether its sideband tells whose it is. -/
def OptClass.add (k : OptClass) (f : FlitBits) (e : Option Bool) : OptClass :=
  { k with part := k.part ++ [f], hurt := match e with | some b => k.hurt ++ [(k.part.length, b)] | none => k.hurt }

/-- R385, R444: the flits of a frame's slots reach their classes' buffers. -/
def OptPort.slots (x : OptPort) (fr : Frame) : OptPort :=
  fr.flits.zipIdx.foldl (fun x f =>
    { x with cls := x.cls.upd .reset (clsNat f.1.1) fun k =>
        k.add f.1.2 ((fr.spoilt.find? fun e => e.1 == f.2).map Prod.snd) }) x

/-- R386: the packets that stand whole in the buffers of each class. -/
def State.assembleAll (s : State) (p : LinkId) : State :=
  [0, 1, 2].foldl (fun s c => s.assemble p c (((s.opt.port p).klass c).part.length + 1)) s

/-- R382 to R386: a frame arrives. A bad one, or one out of sequence, is discarded, and NAK is owed; a good one in sequence
acknowledges, returns credits, asks for replay, and brings its flits. A port that is not linked receives nothing. -/
def execFrame (p : LinkId) (fr : Frame) (s : State) : Out :=
  let x := s.opt.port p
  if !s.hubOn || !x.linked || x.retrain.isSome then .next s
  else
    let s0 := (if s.clk.frozen then s.takeCut else s).updPort p fun x => x.countErrors (frameCsym fr) (frameUcw fr) s.clk.hc
    if frameUcw fr ≠ 0 || frameFseq fr ≠ x.expect then .next ((s0.updPort p fun x => { x with nak := true }).answerFrame p)
    else
      let s1 := s0.updPort p fun x =>
        ((({ x with expect := x.expect + 1, nak := false } : OptPort).acked (frameFack fr) s.clk.hc).credit fr).slots fr
      let s2 := if s.clk.frozen then fr.flits.foldl (fun s f => s.arriveFlit p f.2 (clsNat f.1)) s1 else s1
      let s3 := s2.assembleAll p
      let s4 := if frameNak fr then s3.replay p else s3
      .next (s4.answerFrame p)

end Sys2Proof.Machine
end

