-- ==== Sys2Proof/Machine/PilotBranch.lean ====
section
/-! DEFINITION. Meanings of the control transfers (R172, R203). -/

namespace Sys2Proof.Machine

/-- R172: PC + 4 × sext(imm16). -/
def branchTo (pc : Word64) (imm : BitVec 16) : Word64 := pc + sextI imm * 4

/-- R203: cc from the issue of a taken transfer to its target. -/
def takenDelay : Nat := 7

/-- A conditional branch: taken when `cond` holds of ra and rb. -/
def branchShape (op : Nat) (cond : Word64 → Word64 → Bool) (g : CellId) (f : BFmt) (s : State) : State :=
  let u : Uses := { Uses.none' with s := [f.ra, f.rb] }
  s.issue g u (encB op f) false noPort fun s =>
    let p := (s.cell g).pil
    if cond (p.readS f.ra) (p.readS f.rb) then .ok s takenDelay (some (branchTo p.pc f.imm)) 5 else .ok s 1 none 0

/-- R172: branch when ra = rb. -/
def execBeq (g : CellId) (f : BFmt) (s : State) : Out := .next (branchShape 0b100100 (fun a b => a == b) g f s)

/-- R172: branch when ra ≠ rb. -/
def execBne (g : CellId) (f : BFmt) (s : State) : Out := .next (branchShape 0b100101 (fun a b => a != b) g f s)

/-- R172: branch when ra < rb, signed. -/
def execBlt (g : CellId) (f : BFmt) (s : State) : Out := .next (branchShape 0b100110 (fun a b => a.slt b) g f s)

/-- R172: branch when ra ≥ rb, signed. -/
def execBge (g : CellId) (f : BFmt) (s : State) : Out := .next (branchShape 0b100111 (fun a b => !a.slt b) g f s)

/-- R172: branch when ra < rb, unsigned. -/
def execBltu (g : CellId) (f : BFmt) (s : State) : Out := .next (branchShape 0b101000 (fun a b => a.ult b) g f s)

/-- R172: branch when ra ≥ rb, unsigned. -/
def execBgeu (g : CellId) (f : BFmt) (s : State) : Out := .next (branchShape 0b101001 (fun a b => !a.ult b) g f s)

/-- R172: s1 := PC + 4, jump to PC + 4 × sext(imm26). -/
def execJal (g : CellId) (f : JFmt) (s : State) : Out :=
  .next (s.issue g (usesS [] 1 1) (encJ 0b101010 f) false noPort fun s =>
    let pc := (s.cell g).pil.pc
    .ok (s.updCell g fun c => { c with pil := c.pil.writeS 1 (pc + 4) }) takenDelay (some (pc + f.imm.signExtend 64 * 4)) 5)

/-- R172: rd := PC + 4, jump to ra + sext(imm16) with bits [1:0] cleared; ra is read before rd is written. -/
def execJalr (g : CellId) (f : IFmt) (s : State) : Out :=
  .next (s.issue g (usesS [f.ra] f.rd 1) (encI 0b101011 f) false noPort fun s =>
    let p := (s.cell g).pil
    let to' := (p.readS f.ra + sextI f.imm) &&& ~~~3
    .ok (s.updCell g fun c => { c with pil := c.pil.writeS f.rd (p.pc + 4) }) takenDelay (some to') 5)

end Sys2Proof.Machine
end

