-- ==== Sys2Proof/Machine/PilotRep.lean ====
section
/-! DEFINITION. Block-repeat (R183 to R187, R215): the eight REP instructions start a repeat, REP_ITERATION runs one iteration of
it. -/

namespace Sys2Proof.Machine

/-- R183: operation codes. -/
def rcopyOp : BitVec 3 := 0
/-- R183. -/
def rfillOp : BitVec 3 := 1
/-- R183. -/
def rscanOp : BitVec 3 := 2
/-- R183. -/
def rscannOp : BitVec 3 := 3
/-- R183. -/
def rcmpOp : BitVec 3 := 4
/-- R183. -/
def rspanOp : BitVec 3 := 5
/-- R183. -/
def rbreakOp : BitVec 3 := 6
/-- R183. -/
def rcsumOp : BitVec 3 := 7

/-- R183: whether an operation reads at s4. -/
def repReads4 (op : BitVec 3) : Bool := op != rfillOp

/-- R183: whether an operation writes at s5. -/
def repWrites (op : BitVec 3) : Bool := op == rcopyOp || op == rfillOp

/-- R183, R185: whether an operation writes a stop reason to rd. -/
def repStops (op : BitVec 3) : Bool := 2 ≤ op.toNat && op.toNat ≤ 6

/-- R183, R184: whether an operation reads `ra`, the key or the fill value. -/
def repReadsA (op : BitVec 3) : Bool := op == rfillOp || op == rscanOp || op == rscannOp

/-- R183: fields an operation does not use must be 0, and EW must be one it allows. -/
def repIllegal (op : BitVec 3) (f : RpFmt) : Bool :=
  let span := op == rspanOp || op == rbreakOp
  f.low != 0 || (repWrites op && f.rd != 0) || (!repReadsA op && f.ra != 0)
    || (!span && f.rb != 0) || (span && (f.ew != 0 || f.rb.toNat % 2 == 1)) || (op == rcsumOp && f.ew != 1)

/-- R215: the read latency S of a region that streams; none for the others. -/
def State.repStream (s : State) (g : CellId) (a : Nat) : Option Nat :=
  match (place s.hbmBytes g a).own g with
  | some (.localStore, _) => some 2
  | some (.window, _) => some 3
  | some (.slice, _) => some 6
  | none => none

/-- R215: S of a repeat from its first unit's addresses. -/
def State.repStart (s : State) (g : CellId) (op : BitVec 3) : Nat :=
  let p := (s.cell g).pil
  let r4 := s.repStream g (p.readS 4).toNat
  if op = rfillOp then 1
  else if op = rcmpOp then
    match r4, s.repStream g (p.readS 5).toNat with
    | some x, some y => max x y
    | _, _ => 1
  else r4.getD 1

/-- R183, R184: whether an operation uses s5. -/
def repUses5 (op : BitVec 3) : Bool := repWrites op || op == rcmpOp

/-- R183, R184, R206: the registers that an operation reads or writes. -/
def repUseRegs (op : BitVec 3) (f : RpFmt) : List (BitVec 5) :=
  [3] ++ (if repReads4 op then [4] else []) ++ (if repUses5 op then [5] else []) ++ (if repReadsA op then [f.ra] else [])
    ++ (if op = rcsumOp then [f.rd] else [])

/-- R183, R185: the issue of a repeat. -/
def repShape (op : BitVec 3) (g : CellId) (f : RpFmt) (s : State) : State :=
  let u : Uses :=
    { s := repUseRegs op f, w := if op = rspanOp || op = rbreakOp then [f.rb, f.rb + 1] else [],
      dst := if repWrites op then none else some (false, f.rd), lat := 1, unitFree := 0, mem := true }
  let insn := encRp op.toNat f
  s.issue g u insn (repIllegal op f) noPort fun s =>
    let p := (s.cell g).pil
    if p.readS 3 = 0 then
      .ok (if repStops op then s.updCell g fun c => { c with pil := c.pil.writeS f.rd 0 } else s) 1 none 0
    else
      let r : RepState :=
        { op := op, rd := f.rd, ra := f.ra, rb := f.rb, size := 2 ^ f.ew.toNat, insn := insn,
          next := s.clk.cc + s.repStart g op }
      .ok (s.updCell g fun c => { c.span 0 (s.clk.cc + 1) r.next 2 with pil := { c.pil with rep := some r } }) 1 (some p.pc) 0

/-- R184: RCOPY. -/
def execRcopy (g : CellId) (f : RpFmt) (s : State) : Out := .next (repShape rcopyOp g f s)

/-- R184: RFILL. -/
def execRfill (g : CellId) (f : RpFmt) (s : State) : Out := .next (repShape rfillOp g f s)

/-- R184: RSCAN. -/
def execRscan (g : CellId) (f : RpFmt) (s : State) : Out := .next (repShape rscanOp g f s)

/-- R184: RSCANN. -/
def execRscann (g : CellId) (f : RpFmt) (s : State) : Out := .next (repShape rscannOp g f s)

/-- R184: RCMP. -/
def execRcmp (g : CellId) (f : RpFmt) (s : State) : Out := .next (repShape rcmpOp g f s)

/-- R184: RSPAN. -/
def execRspan (g : CellId) (f : RpFmt) (s : State) : Out := .next (repShape rspanOp g f s)

/-- R184: RBREAK. -/
def execRbreak (g : CellId) (f : RpFmt) (s : State) : Out := .next (repShape rbreakOp g f s)

/-- R184: RCSUM. -/
def execRcsum (g : CellId) (f : RpFmt) (s : State) : Out := .next (repShape rcsumOp g f s)

/-! Accesses of an iteration. -/

/-- A write of bytes at `a` that has passed its checks, as an access of cc `now`: queued in an own store, else posted. `none` where a ninth remote request
would be needed (R211). -/
def State.goWrite (s : State) (g : CellId) (a : Nat) (bs : List Byte) (now : Nat) : Option State :=
  let ps := s.parts g a bs.length
  match ownParts g ps with
  | some (st, o) => some (s.updCell g fun c => c.queueParts st o ps bs now)
  | none => if (s.cell g).pil.room ps then some (s.postAt g false ps bs none bs.length false now) else none

/-- R224: of two faults, PRIV before ACCESS, the read's before the write's. -/
def worseFault (r w : Option (Nat × Bool × Nat)) : Option (Bool × Nat × Bool × Nat) :=
  match r, w with
  | some x, some y => if y.1 < x.1 then some (true, y) else some (false, x)
  | some x, none => some (false, x)
  | none, some y => some (true, y)
  | none, none => none

/-- R272, R440: a read that brought nothing: MCHK at the end of cc `due`, which may have passed just now; a record marks the command where
storage failed. -/
def State.badRead (s : State) (g : CellId) (f : Fetched) (a due : Nat) : State :=
  let w : PilotWb := { wide := false, reg := 0, val := 0, due := due, bad := true, load := true }
  let mech := match (place s.hbmBytes g a) with | .hbm _ => mechHbm | _ => mechSram
  let s1 := if f = .ecc then s.raise g mech actCommand 1 0 0 a else s
  s1.updCell g fun c => Cell.landPil { c with pil := { c.pil with wbs := c.pil.wbs ++ [w] } } s.clk.cc

/-! Iterations. -/

/-- R183: whether byte `b` is in the class of w[rb] and w[rb + 1]. -/
def inClass (p : Pilot) (rb : BitVec 5) (b : Nat) : Bool :=
  bit (p.readW (rb + BitVec.ofNat 5 (b / 128))).toNat (b % 128)

/-- R183, R184: whether an iteration with the units read stops the repeat. -/
def RepState.stops (r : RepState) (p : Pilot) (x y : Nat) : Bool :=
  let key := bits (p.readS r.ra).toNat 0 (8 * r.size)
  if r.op = rscanOp then x == key
  else if r.op = rscannOp then x != key
  else if r.op = rcmpOp then x != y
  else if r.op = rspanOp then !inClass p r.rb x
  else if r.op = rbreakOp then inClass p r.rb x
  else false

/-- R184: the pilot's registers after a completed iteration that read `bs` at s4. -/
def RepState.stepRegs (r : RepState) (p : Pilot) (bs : List Byte) : Pilot :=
  let p1 :=
    if r.op = rcsumOp then
      let unit := (bs.getD 0 0).toNat * 256 + (bs.getD 1 0).toNat
      let v := bits (p.readS r.rd).toNat 0 16 + unit
      p.writeS r.rd (w64 (if 0xFFFF < v then v - 0xFFFF else v))
    else p
  let n := w64 r.size
  let p2 := if r.op = rfillOp then p1 else p1.writeS 4 (p1.readS 4 + n)
  let p3 := if repWrites r.op || r.op = rcmpOp then p2.writeS 5 (p2.readS 5 + n) else p2
  p3.writeS 3 (p3.readS 3 - 1)

/-- R215: cc per unit, and cc from the last iteration to the next instruction. -/
def RepState.pace (r : RepState) : Nat × Nat :=
  if r.op = rcopyOp then (2, 3) else if r.op = rcmpOp then (2, 2) else (1, 2)

/-- R184: the repeat ends: rd gets its stop reason, and the next word issues at cc `next`. -/
def Cell.repEnd (c : Cell) (r : RepState) (reason : Nat) (next : Nat) : Cell :=
  let p := if repStops r.op then c.pil.writeS r.rd (w64 reason) else c.pil
  { c with pil := { p with rep := none, pc := p.pc + 4, next := next, nextWhy := 2 } }

/-- R215: whether a unit of an iteration, at `a`, lies in a streaming region and crosses a grain of it. -/
def State.repCross (s : State) (g : CellId) (a n : Nat) : Bool :=
  (ownParts g (s.parts g a n)).isSome && (s.parts g a n).length == 2

/-- R215: the cc that an iteration takes at least: its pace, and one more for each unit that crosses a grain: one it reads in a streaming
region, and one it writes. -/
def State.repCc (s : State) (g : CellId) (r : RepState) : Nat :=
  let p := (s.cell g).pil
  let a5 := (p.readS 5).toNat
  r.pace.1 + b2n (repReads4 r.op && s.repCross g (p.readS 4).toNat r.size) + b2n (r.op == rcmpOp && s.repCross g a5 r.size)
    + b2n (repWrites r.op && (s.parts g a5 r.size).length == 2)

/-- R184, R215: the end of the iteration that began in cc `r.next` and has read `bx` at s4 and `by'` at s5. One that waited for a read of
another region (`waited`) ends with it, in the cc before this one, and then a destination that crosses a grain adds nothing (log 54). Where its write finds no
room it waits on. -/
def State.repFinish (s : State) (g : CellId) (r : RepState) (bx by' : List Byte) (waited : Bool) : State :=
  let now := s.clk.cc
  let p := (s.cell g).pil
  let n := r.size
  let stop := r.stops p (leNat bx) (leNat by')
  let out := if r.op = rcopyOp then bx else leBytes (p.readS r.ra).toNat n
  match (if repWrites r.op then s.goWrite g (p.readS 5).toNat out now else some s) with
  | none => s.pilotWhy g 4
  | some s1 =>
    let cc := s.repCc g r
    let after := if waited then max now (r.next + cc) else now + cc
    let last := if waited then now - 1 + r.pace.2 else now + (cc - r.pace.1) + r.pace.2
    let s2 := s1.updCell g fun c => (c.engine 0 (now + 1) 0).span 0 (now + 1) last 2
    if stop then s2.updCell g fun c => c.repEnd r 1 last
    else
      s2.updCell g fun c =>
        let p1 := r.stepRegs c.pil bx
        let c1 : Cell := { c with pil := p1 }
        if p1.readS 3 == 0 then c1.repEnd r 0 last
        else { c1 with pil := { c1.pil with rep := some { r with next := after, waits := none } } }

/-- R440, R272: a read of the iteration brought nothing: it is not performed, and a machine check follows. -/
def State.repBad (s : State) (g : CellId) (r : RepState) (f : Fetched) (a due : Nat) : State :=
  (s.badRead g f a due).updCell g fun c => { c with pil := { c.pil with rep := some { r with next := due + 1, waits := none } } }

/-- R215: a read of an iteration begins: in a streaming region it brings its bytes, both halves of a crossing unit, in this first cc of the
iteration (log 79); elsewhere it is posted. -/
def State.repRead (s : State) (g : CellId) (a n : Nat) : State × (RepRead × Bool) :=
  let ps := s.parts g a n
  match ownParts g ps with
  | some (st, o) => let x := s.pilotRead g st o n; (s.correctAt g (st.place g o) n, .done x.1, x.2)
  | none => (s.postParts g true ps [] none n false, .wait (s.cell g).pil.nextReq, false)

/-- The bytes of a read that has ended. -/
def RepRead.bytes : RepRead → Option (List Byte)
  | .none => Option.some []
  | .wait _ => Option.none
  | .done bs => Option.some bs

/-- R211: requests that the reads of an iteration need. -/
def State.repNeeds (s : State) (g : CellId) (r : RepState) : List Part :=
  let p := (s.cell g).pil
  let need (a : Nat) : List Part := let ps := s.parts g a r.size; if (ownParts g ps).isSome then [] else ps
  (if repReads4 r.op then need (p.readS 4).toNat else []) ++ (if r.op = rcmpOp then need (p.readS 5).toNat else [])

/-- R211, R215: the reads of an iteration that has passed its checks; with all of them brought, it ends. -/
def State.repReads (s : State) (g : CellId) (r : RepState) : State :=
  let p := (s.cell g).pil
  let a4 := (p.readS 4).toNat
  let a5 := (p.readS 5).toNat
  let n := r.size
  if !p.room (s.repNeeds g r) || (repReads4 r.op && p.storeHolds a4 n) || (r.op == rcmpOp && p.storeHolds a5 n) then s.pilotWhy g 4
  else
    let r := { r with next := s.clk.cc }
    let x := if repReads4 r.op then s.repRead g a4 n else (s, .none, false)
    let y := if r.op = rcmpOp then x.1.repRead g a5 n else (x.1, .none, false)
    if x.2.2 then s.repBad g r .ecc a4 (s.clk.cc + 2)
    else if y.2.2 then s.repBad g r .ecc a5 (s.clk.cc + 2)
    else
      match x.2.1.bytes, y.2.1.bytes with
      | some bx, some by' => s.repFinish g r bx by' false
      | _, _ =>
        y.1.updCell g fun c => { c with pil := { c.pil with rep := some { r with waits := some (x.2.1, y.2.1) } } }

/-- One iteration of repeat `r`: the checks of all its accesses, then its reads; or the end of one that has its reads. -/
def State.repStep (s : State) (g : CellId) (r : RepState) : State :=
  match r.waits with
  | some (x, y) =>
    match x.bytes, y.bytes with
    | some bx, some by' => s.repFinish g r bx by' true
    | _, _ => s.pilotWhy g 4
  | none =>
    let p := (s.cell g).pil
    let a4 := (p.readS 4).toNat
    let a5 := (p.readS 5).toNat
    let rf := if repReads4 r.op then s.accessFault g a4 r.size false false else none
    let rf5 := if r.op = rcmpOp then s.accessFault g a5 r.size false false else none
    let wf := if repWrites r.op then s.accessFault g a5 r.size true false else none
    match worseFault rf ((worseFault rf5 wf).map Prod.snd) with
    | some (second, code, half, addr) => s.fault g code (second && wf.isSome) half (w64 addr) 0 r.insn
    | none => s.repReads g r

/-- R211, R215: the response of a read that an iteration waits for, of requests that `q` marks: its bytes, or none; with its last read it
ends. -/
def State.repAnswer (s : State) (g : CellId) (q : Nat → Bool) (got : Fetched) (a : Nat) : State :=
  let take (x : RepRead) (bs : List Byte) : RepRead := match x with | .wait k => if q k then .done bs else x | _ => x
  match (s.cell g).pil.rep with
  | none => s
  | some r =>
    match r.waits with
    | none => s
    | some (x, y) =>
      match got with
      | .data bs =>
        let r1 := { r with waits := some (take x bs, take y bs) }
        let s1 := s.updCell g fun c => { c with pil := { c.pil with rep := some r1 } }
        if (take x bs).bytes.isSome && (take y bs).bytes.isSome then s1.repStep g r1 else s1
      | f => s.repBad g r f a (s.clk.cc - 1)

/-- R186, R187, R215: one iteration of the running repeat, when it is due. An interrupt that is due is taken at the boundary
before it (INTERRUPT_ENTRY). With no repeat running nothing happens. -/
def execRepIteration (g : CellId) (s : State) : Out :=
  match (s.cell g).pil.rep with
  | none => .next s
  | some r =>
    if s.live g then
      .next (s.untilThen r.next fun s => if r.waits.isNone && ((s.cell g).exc.takeable s.clk.cc).isSome then s else s.repStep g r)
    else .next s

end Sys2Proof.Machine
end

