-- ==== Sys2Proof/Machine/PilotCustom.lean ====
section
/-! DEFINITION. Custom instructions (R192 to R199): their check, the run of their micro-ops, and their common commit. -/

namespace Sys2Proof.Machine

/-- R193: the micro-ops of an entry. -/
def Ucode.ops (c : Ucode) (e : Nat) : List Nat :=
  let w := (c.udt.get 0 e).toNat
  (List.range (bits w 11 6 + 1)).map fun i => (c.store.get 0 (bits w 2 9 + i)).toNat

/-- R206: the registers a custom instruction reads or writes. -/
def microUses (f : CFmt) (ops : List Nat) : List (BitVec 5) :=
  ops.flatMap fun u => [bits u 52 4, bits u 48 4, bits u 44 4].filterMap (microReg f)

/-- R199: the s registers that it writes, each once. -/
def microDests (f : CFmt) (ops : List Nat) : List (BitVec 5) :=
  ((ops.filterMap fun u => microReg f (bits u 52 4)).filter (· != 0)).eraseDups

/-- A custom instruction at its beginning, in cc `now`: the registers as they stand. -/
def Pilot.microStart (p : Pilot) (f : CFmt) (ops : List Nat) (now : Nat) : MicroRun :=
  { f := f, req := none, regs := (microUses f ops).map fun r => (r, p.readS r), t := [], writes := [], dst := 0, rest := [],
    dests := microDests f ops, due := now + ops.length - 1, reads := [], got := [], bad := false, since := now }

/-- Its memory micro-op, if it has one: how many micro-ops come before it. -/
def microMemAt (ops : List Nat) : Option Nat := ops.findIdx? microMem

/-- R196: the memory micro-op at place `k`: its address, width in bytes, and the value of a store. -/
def MicroRun.access (m : MicroRun) (u : Nat) : Nat × Nat × Option Word64 :=
  let src := microSrc m.regs m.f m.t u
  let op := bits u 56 6
  ((src (bits u 48 4) + microImm u).toNat, 2 ^ (op % 4), if op < 0x34 then none else some (src (bits u 44 4)))

/-- The instruction up to its memory micro-op, and that access. -/
def MicroRun.toAccess (m : MicroRun) (ops : List Nat) : Option (Nat × MicroRun × Nat × Nat × Option Word64) :=
  (microMemAt ops).map fun k =>
    let m1 := m.steps (ops.take k)
    (k, m1, m1.access (ops.getD k 0))

/-- R206: the cc from `t` on in which two results of the instruction's, or its one, find the write ports of the s file free at the end of cc
`t` + `lat` − 1. More than two land together all the same (log 55). -/
def Pilot.microPort (p : Pilot) (dests : Nat) (lat t : Nat) : Nat → Nat
  | 0 => t
  | fuel + 1 => if p.landings false (t + lat - 1) + min dests 2 ≤ 2 then t else p.microPort dests lat (t + 1) fuel

/-- R199, R206, R209: the first cc in which a custom instruction finds the port of its memory micro-op free, when that micro-op issues, and the
write ports when its results land. -/
def State.microWait (s : State) (g : CellId) (f : CFmt) (ops : List Nat) : Nat :=
  let p := (s.cell g).pil
  let ports (lat t : Nat) : Nat := p.microPort (microDests f ops).length lat t p.pendings
  match (p.microStart f ops s.clk.cc).toAccess ops with
  | none => ports ops.length s.clk.cc
  | some (k, _, a, n, v) =>
    match s.ownShape g a n with
    | some (lat, free) => ports (if v.isNone then ops.length + lat else ops.length) (max s.clk.cc (free - k))
    | none => if v.isNone then 0 else ports ops.length s.clk.cc

/-- R199: commit of an instruction without a load: every architectural write lands `n` cc after its beginning. -/
def MicroRun.commit (m : MicroRun) (s : State) (g : CellId) (n : Nat) : Res :=
  .ok (s.updCell g fun c =>
    { c with pil := m.writes.foldl (fun p w => p.result false w.1 (w.2.setWidth 128) n s.clk.cc) c.pil }) n none 1

/-- R199, R209, R213: the load of the micro-op at place `k`, from an own store: its port, its reads, and its results on their way. -/
def MicroRun.ownLoad (m : MicroRun) (s : State) (g : CellId) (k n lat : Nat) (st : OwnStore) (o : Nat) (ps : List Part) : Res :=
  let at' := s.clk.cc + k
  let m1 := { m with due := s.clk.cc + n + lat - 1, reads := ownReads st o ps at' }
  .ok (s.updCell g fun c =>
    { c with pil := { c.pil.usePort st at' ps.length with micros := c.pil.micros ++ [m1] } }) n none 1

/-- R199, R211: the load of the micro-op at place `k` from another region is posted when it issues; its results land n cc of issue and L after the
beginning. -/
def MicroRun.remoteLoad (m : MicroRun) (s : State) (g : CellId) (k n a len : Nat) : Res :=
  let ps := s.parts g a len
  let p := (s.cell g).pil
  if !p.room ps || p.storeHolds a len then .stall 4
  else
    let m1 := { m with req := some p.nextReq, due := n - k }
    .ok ((s.postAt g true ps [] none len false (s.clk.cc + k)).updCell g fun c => { c with pil := { c.pil with micros := c.pil.micros ++ [m1] } })
      n none 1

/-- R196 to R199: the body of a custom instruction whose memory micro-op stands at place `k`, with the access `a`, `len`, `v`. -/
def MicroRun.memory (m : MicroRun) (s : State) (g : CellId) (ops : List Nat) (k a len : Nat) (v : Option Word64) : Res :=
  let n := ops.length
  match s.accessFault g a len v.isSome false with
  | some (code, half, addr) => .trap code v.isSome half (w64 addr) 0
  | none =>
    let rest := ops.drop (k + 1)
    match v with
    | some x =>
      let m1 := m.steps rest
      match s.goWrite g a (leBytes x.toNat len) (s.clk.cc + n - 1) with
      | none => .stall 4
      | some s1 =>
        let ps := s.parts g a len
        let s2 := match ownParts g ps with
          | some (st, _) => s1.updCell g fun c => { c with pil := c.pil.usePort st (s.clk.cc + k) ps.length }
          | none => s1
        m1.commit s2 g n
    | none =>
      let m1 := { m with dst := bits (ops.getD k 0) 52 4, rest := rest.map w64 }
      let ps := s.parts g a len
      match ownParts g ps with
      | some (st, o) => m1.ownLoad s g k n (ownLoadLat st (ps.length == 2)) st o ps
      | none => m1.remoteLoad s g k n a len

/-- R192, R197 to R199: CUSTOM: check the entry, run its micro-ops, and commit them together, or fault with nothing changed. -/
def execCustom (g : CellId) (f : CFmt) (s : State) : Out :=
  let uc := (s.cell g).uc
  let w := (uc.udt.get 0 f.entry.toNat).toNat
  let ops := uc.ops f.entry.toNat
  let u : Uses := { Uses.none' with s := microUses f ops, mem := ops.any microMem }
  .next (s.issue g u (encC f) (!bit w 0) (fun s => s.microWait g f ops) fun s =>
    let c := s.cell g
    if !c.exc.pl && !bit w 1 then .trap xPriv false false 0 0
    else
      let m := c.pil.microStart f ops s.clk.cc
      match m.toAccess ops with
      | some (k, m1, a, len, v) => m1.memory s g ops k a len v
      | none => (m.steps ops).commit s g ops.length)

end Sys2Proof.Machine
end

