-- ==== Sys2Proof/Machine/PilotFloat.lean ====
section
/-! DEFINITION. Meanings of the pilot's scalar floating-point and short-vector instructions (R173 to R179). -/

namespace Sys2Proof.Machine

/-- R173: fa + fb. -/
def execFadd (g : CellId) (f : FFmt) (s : State) : Out :=
  .next (fopShape 0x00 true (fun t => fpLat t 4 3 3) (fun t r x y => t.fadd r false (t.decodeF x) (t.decodeF y)) g f s)

/-- R173: fa − fb. -/
def execFsub (g : CellId) (f : FFmt) (s : State) : Out :=
  .next (fopShape 0x01 true (fun t => fpLat t 4 3 3) (fun t r x y => t.fadd r false (t.decodeF x) (t.decodeF y).neg) g f s)

/-- R173: fa × fb. -/
def execFmul (g : CellId) (f : FFmt) (s : State) : Out :=
  .next (fopShape 0x02 true (fun t => fpLat t 4 3 3) (fun t r x y => t.fmul r (t.decodeF x) (t.decodeF y)) g f s)

/-- R173, R207: fa / fb on the float divider. -/
def execFdiv (g : CellId) (f : FFmt) (s : State) : Out :=
  .next (fdivShape 0x03 true (fun t => fpLat t 24 14 9) (fun t r x y => t.fdiv r (t.decodeF x) (t.decodeF y)) g f s)

/-- R173, R207: √fa on the float divider. -/
def execFsqrt (g : CellId) (f : FFmt) (s : State) : Out :=
  .next (fdivShape 0x04 false (fun t => fpLat t 30 16 10) (fun t r x _ => t.fsqrt r (t.decodeF x)) g f s)

/-- R173, R174: the smaller. -/
def execFmin (g : CellId) (f : FFmt) (s : State) : Out :=
  .next (fopShape 0x05 true (fun t => fpLat t 4 3 3) (fun t _ x y => t.fminmax false x y) g f s)

/-- R173, R174: the larger. -/
def execFmax (g : CellId) (f : FFmt) (s : State) : Out :=
  .next (fopShape 0x06 true (fun t => fpLat t 4 3 3) (fun t _ x y => t.fminmax true x y) g f s)

/-- R173, R174: |fa|. -/
def execFabs (g : CellId) (f : FFmt) (s : State) : Out :=
  .next (fopShape 0x07 false (fun _ => 1) (fun t _ x _ => absElem t x) g f s)

/-- R173, R174: −fa. -/
def execFneg (g : CellId) (f : FFmt) (s : State) : Out :=
  .next (fopShape 0x08 false (fun _ => 1) (fun t _ x _ => t.fsign true x) g f s)

/-- R173, R174: a compare into sd. -/
def execFeq (g : CellId) (f : FFmt) (s : State) : Out :=
  .next (fcmpShape 0x10 .eq g f s)

/-- R173, R174: a compare into sd. -/
def execFlt (g : CellId) (f : FFmt) (s : State) : Out :=
  .next (fcmpShape 0x11 .lt g f s)

/-- R173, R174: a compare into sd. -/
def execFle (g : CellId) (f : FFmt) (s : State) : Out :=
  .next (fcmpShape 0x12 .le g f s)

/-- R173: fd := sa, all 64 bits; fmt must be 0b00 and rb 0. -/
def execFmvsf (g : CellId) (f : FFmt) (s : State) : Out :=
  .next (s.issueReg g { usesS [f.ra] 0 1 with dst := some (true, f.rd) } (encF 0x1E f)
    (f.hi != 0 || f.fmt != 0 || f.rb != 0) fun c => ((c.pil.readS f.ra).setWidth 128, 0))

/-- R173: sd := fa, all 64 bits. -/
def execFmvfs (g : CellId) (f : FFmt) (s : State) : Out :=
  .next (s.issueReg g (usesW [f.ra] false f.rd 1) (encF 0x1F f)
    (f.hi != 0 || f.fmt != 0 || f.rb != 0) fun c => ((c.pil.readF f.ra).setWidth 128, 0))

/-- R175: FMADD, rounded once. -/
def execFmadd (g : CellId) (f : FmFmt) (s : State) : Out :=
  .next (fmaShape 0 false false g f s)

/-- R175: FMSUB, rounded once. -/
def execFmsub (g : CellId) (f : FmFmt) (s : State) : Out :=
  .next (fmaShape 1 false true g f s)

/-- R175: FNMADD, rounded once. -/
def execFnmadd (g : CellId) (f : FmFmt) (s : State) : Out :=
  .next (fmaShape 2 true false g f s)

/-- R175: FNMSUB, rounded once. -/
def execFnmsub (g : CellId) (f : FmFmt) (s : State) : Out :=
  .next (fmaShape 3 true true g f s)

/-- R176: the formats of FCVT. -/
def cvtFmt (c : BitVec 4) : Option Elem :=
  if c = 4 || c = 7 || c = 8 || c = 9 || c = 0xC then none else Elem.ofCode c.toNat

/-- R176: FCVT. A float side names an f register, an integer side an s register. -/
def execFcvt (g : CellId) (f : CvFmt) (s : State) : Out :=
  let src := (cvtFmt f.src).getD .fp64
  let dst := (cvtFmt f.dst).getD .fp64
  let u : Uses :=
    { s := if src.isFloat then [] else [f.ra], w := if src.isFloat then [f.ra] else [], dst := some (dst.isFloat, f.rd),
      lat := 3, unitFree := 0, mem := false }
  let bad := f.low != 0 || (cvtFmt f.src).isNone || (cvtFmt f.dst).isNone || f.src == f.dst
  .next (s.issueReg g u (encCv f) bad fun c =>
    let x := if src.isFloat then (c.pil.readF f.ra).toNat else (c.pil.readS f.ra).toNat
    let r := convertElem src dst (Rnd.plain c.fp.prm) x
    (BitVec.ofNat 128 (scalarOf dst r.bits), r.flags))

/-- R178: wa + wb. -/
def execWadd (g : CellId) (f : WFmt) (s : State) : Out :=
  .next (wopShape 0x0 (fun _ => true) false (wLat 4 3) (fun t r x y _ => elemOp t (t.fadd r false) (· + ·) x y) g f s)

/-- R178: wa − wb. -/
def execWsub (g : CellId) (f : WFmt) (s : State) : Out :=
  .next (wopShape 0x1 (fun _ => true) false (wLat 4 3) (fun t r x y _ => elemOp t (fun a b => t.fadd r false a b.neg) (· - ·) x y) g f s)

/-- R178: wa × wb. -/
def execWmul (g : CellId) (f : WFmt) (s : State) : Out :=
  .next (wopShape 0x2 (fun _ => true) false (wLat 4 3) (fun t r x y _ => elemOp t (t.fmul r) (· * ·) x y) g f s)

/-- R178: minimum. -/
def execWmin (g : CellId) (f : WFmt) (s : State) : Out :=
  .next (wopShape 0x3 (fun _ => true) false (wLat 4 3) (fun t _ x y _ => elemMinMax t false x y) g f s)

/-- R178: maximum. -/
def execWmax (g : CellId) (f : WFmt) (s : State) : Out :=
  .next (wopShape 0x4 (fun _ => true) false (wLat 4 3) (fun t _ x y _ => elemMinMax t true x y) g f s)

/-- R178: wa × wb + wd, rounded once; float types. -/
def execWfma (g : CellId) (f : WFmt) (s : State) : Out :=
  .next (wopShape 0x5 Elem.isFloat true (wLat 5 4) (fun t r x y d => t.ffma r (t.decodeF x) (t.decodeF y) (t.decodeF d)) g f s)

/-- R178: bitwise; integer types. -/
def execWand (g : CellId) (f : WFmt) (s : State) : Out :=
  .next (wopShape 0x8 (fun t => !t.isFloat) false (wLat 2 2) (fun _ _ x y _ => ⟨x &&& y, 0⟩) g f s)

/-- R178: bitwise; integer types. -/
def execWor (g : CellId) (f : WFmt) (s : State) : Out :=
  .next (wopShape 0x9 (fun t => !t.isFloat) false (wLat 2 2) (fun _ _ x y _ => ⟨x ||| y, 0⟩) g f s)

/-- R178: bitwise; integer types. -/
def execWxor (g : CellId) (f : WFmt) (s : State) : Out :=
  .next (wopShape 0xa (fun t => !t.isFloat) false (wLat 2 2) (fun _ _ x y _ => ⟨x ^^^ y, 0⟩) g f s)

/-- R178: bit i of sd is the compare of element i. -/
def execWcmpeq (g : CellId) (f : WFmt) (s : State) : Out :=
  .next (wcmpShape 0x10 .eq g f s)

/-- R178: bit i of sd is the compare of element i. -/
def execWcmplt (g : CellId) (f : WFmt) (s : State) : Out :=
  .next (wcmpShape 0x11 .lt g f s)

/-- R178: bit i of sd is the compare of element i. -/
def execWcmple (g : CellId) (f : WFmt) (s : State) : Out :=
  .next (wcmpShape 0x12 .le g f s)

/-- R178: WBCAST: the low bits of sa or fa to every element. -/
def execWbcast (g : CellId) (f : WFmt) (s : State) : Out :=
  let t := (wType f.ty).getD .uint8
  let u := if t.isFloat then usesW [f.ra] true f.rd 2 else { usesS [f.ra] 0 2 with dst := some (true, f.rd) }
  .next (s.issueReg g u (encW 0x18 f) (f.hi != 0 || (wType f.ty).isNone || f.rb != 0) fun c =>
    let x := if t.isFloat then (c.pil.readF f.ra).toNat else (c.pil.readS f.ra).toNat
    (BitVec.ofNat 128 (ofElems t.width (128 / t.width) fun _ => x), 0))

/-- R178, R179: WEXT: element rb of wa into sd or fd; rb at or above the element count is reserved. -/
def execWext (g : CellId) (f : WFmt) (s : State) : Out :=
  let t := (wType f.ty).getD .uint8
  .next (s.issueReg g (usesW [f.ra] t.isFloat f.rd 2) (encW 0x19 f)
    (f.hi != 0 || (wType f.ty).isNone || 128 / t.width ≤ f.rb.toNat) fun c =>
    (BitVec.ofNat 128 (scalarOf t (elemAt (c.pil.readW f.ra).toNat t.width f.rb.toNat)), 0))

/-- R178, R179: WINS: element rb of wd from sa or fa; the other elements are kept. -/
def execWins (g : CellId) (f : WFmt) (s : State) : Out :=
  let t := (wType f.ty).getD .uint8
  let u : Uses :=
    { s := if t.isFloat then [] else [f.ra], w := if t.isFloat then [f.ra, f.rd] else [f.rd], dst := some (true, f.rd),
      lat := 2, unitFree := 0, mem := false }
  .next (s.issueReg g u (encW 0x1A f) (f.hi != 0 || (wType f.ty).isNone || 128 / t.width ≤ f.rb.toNat) fun c =>
    let x := if t.isFloat then (c.pil.readF f.ra).toNat else (c.pil.readS f.ra).toNat
    let d := (c.pil.readW f.rd).toNat
    (BitVec.ofNat 128 (ofElems t.width (128 / t.width) fun i => if i = f.rb.toNat then x else elemAt d t.width i), 0))

/-- R178: one byte of WPICKB by selector `c`. -/
def pickByte (a d c : Nat) : Nat :=
  match bits c 6 2 with
  | 0 => elemAt a 8 (bits c 0 4)
  | 1 => elemAt d 8 (bits c 0 4)
  | 2 => 0
  | _ => 0xFF

/-- R178: WPICKB; UINT8 only, it reads wd. -/
def execWpickb (g : CellId) (f : WFmt) (s : State) : Out :=
  .next (s.issueReg g (usesW [f.ra, f.rb, f.rd] true f.rd 2) (encW 0x1C f) (f.hi != 0 || wType f.ty != some .uint8) fun c =>
    let a := (c.pil.readW f.ra).toNat
    let b := (c.pil.readW f.rb).toNat
    let d := (c.pil.readW f.rd).toNat
    (BitVec.ofNat 128 (ofElems 8 16 fun i => pickByte a d (elemAt b 8 i)), 0))

end Sys2Proof.Machine
end

