-- ==== Sys2Proof/Machine/PilotInt.lean ====
section
/-! DEFINITION. Meanings of the pilot's integer, immediate, bit-field and parsing instructions (R165 to R167, R180 to
R182). -/

namespace Sys2Proof.Machine

/-- R165: ra + rb. -/
def execAdd (g : CellId) (f : RFmt) (s : State) : Out :=
  .next (oprShape 0x0 1 (fun a b => a + b) g f s)

/-- R165: ra − rb. -/
def execSub (g : CellId) (f : RFmt) (s : State) : Out :=
  .next (oprShape 0x1 1 (fun a b => a - b) g f s)

/-- R165: ra and rb. -/
def execAnd (g : CellId) (f : RFmt) (s : State) : Out :=
  .next (oprShape 0x2 1 (fun a b => a &&& b) g f s)

/-- R165: ra or rb. -/
def execOr (g : CellId) (f : RFmt) (s : State) : Out :=
  .next (oprShape 0x3 1 (fun a b => a ||| b) g f s)

/-- R165: ra xor rb. -/
def execXor (g : CellId) (f : RFmt) (s : State) : Out :=
  .next (oprShape 0x4 1 (fun a b => a ^^^ b) g f s)

/-- R165: ra and not rb. -/
def execAndn (g : CellId) (f : RFmt) (s : State) : Out :=
  .next (oprShape 0x5 1 (fun a b => a &&& ~~~b) g f s)

/-- R165: shift left by rb mod 64. -/
def execSll (g : CellId) (f : RFmt) (s : State) : Out :=
  .next (oprShape 0x6 1 (fun a b => a <<< shAmt b) g f s)

/-- R165: logical shift right. -/
def execSrl (g : CellId) (f : RFmt) (s : State) : Out :=
  .next (oprShape 0x7 1 (fun a b => a >>> shAmt b) g f s)

/-- R165: arithmetic shift right. -/
def execSra (g : CellId) (f : RFmt) (s : State) : Out :=
  .next (oprShape 0x8 1 (fun a b => a.sshiftRight (shAmt b)) g f s)

/-- R165: 1 if ra < rb signed. -/
def execSlt (g : CellId) (f : RFmt) (s : State) : Out :=
  .next (oprShape 0x9 1 (fun a b => boolBv 64 (a.slt b)) g f s)

/-- R165: 1 if ra < rb unsigned. -/
def execSltu (g : CellId) (f : RFmt) (s : State) : Out :=
  .next (oprShape 0xa 1 (fun a b => boolBv 64 (a.ult b)) g f s)

/-- R165: signed minimum. -/
def execMin (g : CellId) (f : RFmt) (s : State) : Out :=
  .next (oprShape 0xb 1 (fun a b => sminBv a b) g f s)

/-- R165: signed maximum. -/
def execMax (g : CellId) (f : RFmt) (s : State) : Out :=
  .next (oprShape 0xc 1 (fun a b => smaxBv a b) g f s)

/-- R165: unsigned minimum. -/
def execMinu (g : CellId) (f : RFmt) (s : State) : Out :=
  .next (oprShape 0xd 1 (fun a b => uminBv a b) g f s)

/-- R165: unsigned maximum. -/
def execMaxu (g : CellId) (f : RFmt) (s : State) : Out :=
  .next (oprShape 0xe 1 (fun a b => umaxBv a b) g f s)

/-- R165: low 64 bits of the product; L = 3 (R207). -/
def execMul (g : CellId) (f : RFmt) (s : State) : Out :=
  .next (oprShape 0x10 3 (fun a b => a * b) g f s)

/-- R165: high 64 bits, signed × signed; L = 4. -/
def execMulh (g : CellId) (f : RFmt) (s : State) : Out :=
  .next (oprShape 0x11 4 (fun a b => BitVec.ofInt 64 (a.toInt * b.toInt / 2 ^ 64)) g f s)

/-- R165: high 64 bits, unsigned × unsigned. -/
def execMulhu (g : CellId) (f : RFmt) (s : State) : Out :=
  .next (oprShape 0x12 4 (fun a b => w64 (a.toNat * b.toNat / 2 ^ 64)) g f s)

/-- R165: high 64 bits, signed × unsigned. -/
def execMulhsu (g : CellId) (f : RFmt) (s : State) : Out :=
  .next (oprShape 0x13 4 (fun a b => BitVec.ofInt 64 (a.toInt * (b.toNat : Int) / 2 ^ 64)) g f s)

/-- R165: rotate right by rb mod 64. -/
def execRor (g : CellId) (f : RFmt) (s : State) : Out :=
  .next (oprShape 0x18 1 (fun a b => a.rotateRight (shAmt b)) g f s)

/-- R165, R166: signed quotient; the divider, L = 34. -/
def execDiv (g : CellId) (f : RFmt) (s : State) : Out :=
  .next (oprDivShape 0x14 divS g f s)

/-- R165, R166: unsigned quotient; the divider, L = 34. -/
def execDivu (g : CellId) (f : RFmt) (s : State) : Out :=
  .next (oprDivShape 0x15 divU g f s)

/-- R165, R166: signed remainder; the divider, L = 34. -/
def execRem (g : CellId) (f : RFmt) (s : State) : Out :=
  .next (oprDivShape 0x16 remS g f s)

/-- R165, R166: unsigned remainder; the divider, L = 34. -/
def execRemu (g : CellId) (f : RFmt) (s : State) : Out :=
  .next (oprDivShape 0x17 remU g f s)

/-- R165: an OPRW function on the low halves, sign-extended; reserved codes are illegal. -/
def execOprw (g : CellId) (op : BitVec 6) (f : RFmt) (s : State) : Out :=
  let bad := f.hi != 0 || (oprwFn op.toNat 0 0).isNone
  let val (a b : Word64) : Word64 := sextW ((oprwFn op.toNat (lowW a) (lowW b)).getD 0)
  let insn := encR 0b000010 op.toNat f
  .next (if oprwDivides op.toNat then divShape insn bad 18 f.ra f.rb f.rd val g s
    else s.issueInt g [f.ra, f.rb] f.rd (oprwLat op.toNat) insn bad fun p => val (p.readS f.ra) (p.readS f.rb))

/-- R167: ra + sext(imm16). -/
def execAddi (g : CellId) (f : IFmt) (s : State) : Out :=
  .next (immShape 0b00000011 (fun a i => a + sextI i) g f s)

/-- R167: 32-bit add of sext(imm16), sign-extended. -/
def execAddiw (g : CellId) (f : IFmt) (s : State) : Out :=
  .next (immShape 0b00000100 (fun a i => sextW (lowW a + lowW (sextI i))) g f s)

/-- R167: and with zext(imm16). -/
def execAndi (g : CellId) (f : IFmt) (s : State) : Out :=
  .next (immShape 0b00000101 (fun a i => a &&& zextI i) g f s)

/-- R167: or with zext(imm16). -/
def execOri (g : CellId) (f : IFmt) (s : State) : Out :=
  .next (immShape 0b00000110 (fun a i => a ||| zextI i) g f s)

/-- R167: exclusive-or with zext(imm16). -/
def execXori (g : CellId) (f : IFmt) (s : State) : Out :=
  .next (immShape 0b00000111 (fun a i => a ^^^ zextI i) g f s)

/-- R167: signed compare with sext(imm16). -/
def execSlti (g : CellId) (f : IFmt) (s : State) : Out :=
  .next (immShape 0b00001000 (fun a i => boolBv 64 (a.slt (sextI i))) g f s)

/-- R167: unsigned compare with sext(imm16). -/
def execSltiu (g : CellId) (f : IFmt) (s : State) : Out :=
  .next (immShape 0b00001001 (fun a i => boolBv 64 (a.ult (sextI i))) g f s)

/-- R167: SLLI. -/
def execSlli (g : CellId) (f : ShFmt) (s : State) : Out :=
  .next (shiShape 0 false (fun a k => a <<< k) g f s)

/-- R167: SRLI. -/
def execSrli (g : CellId) (f : ShFmt) (s : State) : Out :=
  .next (shiShape 1 false (fun a k => a >>> k) g f s)

/-- R167: SRAI. -/
def execSrai (g : CellId) (f : ShFmt) (s : State) : Out :=
  .next (shiShape 2 false (fun a k => a.sshiftRight k) g f s)

/-- R167: RORI. -/
def execRori (g : CellId) (f : ShFmt) (s : State) : Out :=
  .next (shiShape 3 false (fun a k => a.rotateRight k) g f s)

/-- R167: SLLIW. -/
def execSlliw (g : CellId) (f : ShFmt) (s : State) : Out :=
  .next (shiShape 4 true (fun a k => sextW (lowW a <<< k)) g f s)

/-- R167: SRLIW. -/
def execSrliw (g : CellId) (f : ShFmt) (s : State) : Out :=
  .next (shiShape 5 true (fun a k => sextW (lowW a >>> k)) g f s)

/-- R167: SRAIW. -/
def execSraiw (g : CellId) (f : ShFmt) (s : State) : Out :=
  .next (shiShape 6 true (fun a k => sextW ((lowW a).sshiftRight k)) g f s)

/-- R167: CSET. -/
def execCset (g : CellId) (f : MFmt) (s : State) : Out :=
  .next (s.issueInt g [] f.rd 1 (encM 0 f) false fun _ => csetVal f.hw.toNat f.imm)

/-- R167: CINS; it reads rd. -/
def execCins (g : CellId) (f : MFmt) (s : State) : Out :=
  .next (s.issueInt g [f.rd] f.rd 1 (encM 1 f) false fun p => cinsVal (p.readS f.rd) f.hw.toNat f.imm)

/-- R167: CREP; a nonzero hw is reserved. -/
def execCrep (g : CellId) (f : MFmt) (s : State) : Out :=
  .next (s.issueInt g [] f.rd 1 (encM 2 f) (f.hw != 0) fun _ => crepVal f.imm)

/-- R180: BFX. -/
def execBfx (g : CellId) (f : BfFmt) (s : State) : Out :=
  .next (bitfShape 0 false false (fun a _ pos len => bfxVal a pos len) g f s)

/-- R180: BFXS. -/
def execBfxs (g : CellId) (f : BfFmt) (s : State) : Out :=
  .next (bitfShape 1 false false (fun a _ pos len => bfxsVal a pos len) g f s)

/-- R180: BFI. -/
def execBfi (g : CellId) (f : BfFmt) (s : State) : Out :=
  .next (bitfShape 2 true false (fun a d pos len => bfiVal d a pos len) g f s)

/-- R180: BFC. -/
def execBfc (g : CellId) (f : BfFmt) (s : State) : Out :=
  .next (bitfShape 3 true true (fun _ d pos len => bfiVal d 0 pos len) g f s)

/-- R180 to R182: CLZ. -/
def execClz (g : CellId) (f : RFmt) (s : State) : Out :=
  .next (parseShape 0x0 true false (fun a _ _ => w64 (clzN 64 a.toNat)) g f s)

/-- R180 to R182: CTZ. -/
def execCtz (g : CellId) (f : RFmt) (s : State) : Out :=
  .next (parseShape 0x1 true false (fun a _ _ => w64 (ctzN 64 a.toNat)) g f s)

/-- R180 to R182: POPC. -/
def execPopc (g : CellId) (f : RFmt) (s : State) : Out :=
  .next (parseShape 0x2 true false (fun a _ _ => w64 (popcN 64 a.toNat)) g f s)

/-- R180 to R182: CLZW. -/
def execClzw (g : CellId) (f : RFmt) (s : State) : Out :=
  .next (parseShape 0x3 true false (fun a _ _ => w64 (clzN 32 a.toNat)) g f s)

/-- R180 to R182: CTZW. -/
def execCtzw (g : CellId) (f : RFmt) (s : State) : Out :=
  .next (parseShape 0x4 true false (fun a _ _ => w64 (ctzN 32 a.toNat)) g f s)

/-- R180 to R182: POPCW. -/
def execPopcw (g : CellId) (f : RFmt) (s : State) : Out :=
  .next (parseShape 0x5 true false (fun a _ _ => w64 (popcN 32 a.toNat)) g f s)

/-- R180 to R182: BPERM. -/
def execBperm (g : CellId) (f : RFmt) (s : State) : Out :=
  .next (parseShape 0x8 false false (fun a b _ => bpermVal a b) g f s)

/-- R180 to R182: BSWAP16. -/
def execBswap16 (g : CellId) (f : RFmt) (s : State) : Out :=
  .next (parseShape 0x9 true false (fun a _ _ => bswapN 2 a) g f s)

/-- R180 to R182: BSWAP32. -/
def execBswap32 (g : CellId) (f : RFmt) (s : State) : Out :=
  .next (parseShape 0xa true false (fun a _ _ => bswapN 4 a) g f s)

/-- R180 to R182: BSWAP64. -/
def execBswap64 (g : CellId) (f : RFmt) (s : State) : Out :=
  .next (parseShape 0xb true false (fun a _ _ => bswapN 8 a) g f s)

/-- R180 to R182: BFXV. -/
def execBfxv (g : CellId) (f : RFmt) (s : State) : Out :=
  .next (parseShape 0x10 false false (fun a b _ => bfxVal a (varPos b) (varLen b)) g f s)

/-- R180 to R182: BFXSV. -/
def execBfxsv (g : CellId) (f : RFmt) (s : State) : Out :=
  .next (parseShape 0x11 false false (fun a b _ => bfxsVal a (varPos b) (varLen b)) g f s)

/-- R180 to R182: BFIV. -/
def execBfiv (g : CellId) (f : RFmt) (s : State) : Out :=
  .next (parseShape 0x12 false true (fun a b d => bfiVal d a (varPos b) (varLen b)) g f s)

end Sys2Proof.Machine
end

