-- ==== Sys2Proof/Machine/Power.lean ====
section
/-! DEFINITION. The power governor (R493 to R495), and the service connector: AUX_SENSE, JTAG and SMBus (R485, R486, R488). -/

namespace Sys2Proof.Machine

/-! The governor. -/

/-- R494: PCAP and DFLOOR of temperature step `st` and supply band `b`, by the Atlas's table or, without one, the default. -/
def Gov.point (x : Gov) (st b : Nat) : Nat × Nat :=
  match x.curve with
  | some body =>
    let w := leNat ((body.drop (4 * (41 * st + b))).take 4)
    (min (bits w 0 12) 3400, max 64 (min 128 (bits w 12 8)))
  | none => (3400, if st ≤ 47 then 64 else if st ≤ 51 then 72 + 8 * (st - 48) else 128)

/-- R493: dreq: the smallest divider from `d` on, of `n` candidates, that keeps within the cap; 128 where none does. -/
def govDivider (pa pf pcap d : Nat) : Nat → Nat
  | 0 => 128
  | n + 1 => if pa * 64 + pf * d ≤ pcap * d then d else govDivider pa pf pcap (d + 1) n

/-- R493: the divider after a window. -/
def govNext (d dreq : Nat) : Nat := if d < dreq then dreq else if dreq < d then d - 1 else d

/-- R493: a window ends; `tjHalf` is the hottest die sensor in 0.5 °C, `mv` the supply in mV, `pa` and `pf` the estimates in W. Before
1,800 hc have passed since the end of the last nothing happens. -/
def execGovernorWindow (tjHalf : Int) (mv pa pf : Nat) (s : State) : Out :=
  let x := s.gov
  if !s.hubOn || s.clk.hc < x.windowAt + 1800 then .next s
  else
    let st := tempStep (tjHalf / 2)
    let b := supplyBand mv
    let k := x.point st b
    let d := s.clk.d.toNat
    let g : Gov :=
      { x with pest := BitVec.ofNat 12 (min 0xFFF (pa + pf)), pcap := BitVec.ofNat 12 k.1, tstep := BitVec.ofNat 6 st,
               band := BitVec.ofNat 6 b, windowAt := x.windowAt + 1800,
               stretched := if 64 < d then BitVec.ofNat 16 (satAdd 0xFFFF x.stretched.toNat 1) else x.stretched }
    .next { s with gov := g, clk := { s.clk with d := BitVec.ofNat 8 (govNext d (govDivider pa pf k.1 k.2 (129 - k.2))) } }

/-! AUX_SENSE and JTAG. -/

/-- R485: AUX_SENSE. -/
def execAuxSense (level : Bool) (s : State) : Out := .next { s with pins := { s.pins with aux := level } }

/-- R485: whether ALERT# is driven low. -/
def State.alertLow (s : State) : Bool := s.clk.powered && s.safe.notice

/-- R485: the module's SMBus address. -/
def Service.smbusAddr (x : Service) : Nat := 0x4C + 2 * b2n x.addr1 + b2n x.addr0

/-- R486: IDCODE. -/
def idcodeWord : Nat := 0x1 * 2 ^ 28 + 0xE825 * 2 ^ 12 + Sys2Proof.Config.jedecCode.toNat * 2 + 1

/-- A number's low bits, the lowest first. -/
def bitList (v : Nat) (n : Nat) : List Bool := (List.range n).map fun i => bit v i

/-- R486: a JTAG instruction with what its data register captures. A module that is off takes none. -/
def State.jtag (s : State) (i : Jtag) (scan : List Bool) : State :=
  if s.clk.powered then { s with pins := { s.pins with jtag := i, scan := scan, driven := i == .extest } } else s

/-- R486: BYPASS: the one-bit register captures 0. -/
def execBypass (s : State) : Out := .next (s.jtag .bypass [false])

/-- R486: IDCODE. -/
def execIdcode (s : State) : Out := .next (s.jtag .idcode (bitList idcodeWord 32))

/-- R486: SAMPLE/PRELOAD captures the pins. -/
def execSamplePreload (pins : List Bool) (s : State) : Out := .next (s.jtag .samplePreload pins)

/-- R486: EXTEST drives the pins, if SCANEN was high as the hub left reset; otherwise it is not accepted. -/
def execExtest (pins : List Bool) (s : State) : Out := .next (if s.pins.scanen then s.jtag .extest pins else s)

/-! SMBus (R488). -/

/-- R488: the answer of a command; none is no acknowledgement. -/
def State.smbus (s : State) (a : Option (List Byte)) : State := { s with pins := { s.pins with answer := a } }

/-- R488: a read answered from the end of soft-start. -/
def State.smbusRead (s : State) (v n : Nat) : State := s.smbus (if s.clk.powered then some (leBytes v n) else none)

/-- R488: whether commands of the later group are answered: PHASE 2 has ended. -/
def State.smbusLate (s : State) : Bool := s.clk.powered && s.boot.fwUp

/-- R9, R488: a register read that is answered from the end of PHASE 2, and clears RC fields. -/
def State.smbusReg (s : State) (off : Nat) : State :=
  if s.smbusLate then
    (s.smbus (some (leBytes ((s.hubRegRead none off).getD 0) 8))).hubRegClear off true true
  else s.smbus none

/-- R488: 0x01. -/
def execSmbusModStat (s : State) : Out := .next (s.smbusRead s.modStat 8)

/-- R488: 0x02. -/
def execSmbusBootStat (s : State) : Out := .next (s.smbusRead s.bootNow.stat 8)

/-- R488: 0x10. -/
def execSmbusInputVoltage (v : BitVec 16) (s : State) : Out := .next (s.smbusRead v.toNat 2)

/-- R488: 0x11. -/
def execSmbusInputCurrent (v : BitVec 16) (s : State) : Out := .next (s.smbusRead v.toNat 2)

/-- R488: 0x12. -/
def execSmbusInputPower (v : BitVec 16) (s : State) : Out := .next (s.smbusRead v.toNat 2)

/-- R488: 0x13. -/
def execSmbusRailVoltages (v : BitVec 128) (s : State) : Out := .next (s.smbusRead v.toNat 16)

/-- R488: 0x20. -/
def execSmbusJunction (v : BitVec 16) (s : State) : Out := .next (s.smbusRead v.toNat 2)

/-- R488: 0x21. -/
def execSmbusCoolantInlet (v : BitVec 16) (s : State) : Out := .next (s.smbusRead v.toNat 2)

/-- R488: 0x22. -/
def execSmbusGovStat (s : State) : Out := .next (s.smbusReg 0xA0000)

/-- R488: 0x31. -/
def execSmbusSafeStat (s : State) : Out := .next (s.smbusReg 0x80000)

/-- R488: 0x39. -/
def execSmbusLogIndex (i : Byte) (pecOk : Bool) (s : State) : Out :=
  .next (if s.smbusLate && pecOk then State.smbus { s with pins := { s.pins with logIndex := i } } (some []) else s.smbus none)

/-- R488: 0x3A. -/
def execSmbusLogRead (s : State) : Out :=
  let r := s.safe.log.get [] s.pins.logIndex.toNat
  .next (if s.smbusLate then s.smbus (some (dwBytes ((List.range 8).map fun i => r.getD i 0))) else s.smbus none)

/-- R359, R488: 0x60. A message that fails the checks of R359 is ignored. -/
def execSmbusTimeOfDay (msg : BitVec 256) (pecOk : Bool) (s : State) : Out :=
  if !s.smbusLate || s.clk.stopped || !pecOk then .next (s.smbus none)
  else
    let dw := (List.range 4).map fun i => w64 (bits msg.toNat (64 * i) 64)
    let s1 := s.smbus (some [])
    if timeBad dw 32 then .next s1
    else
      let d := s1.disp
      let s2 := s1.takeArb s1.clk.hc
      .next (State.timeMessage { s2 with disp := { s2.disp with nextOrder := d.nextOrder + 1 } } dw true d.arbSeq
        (s1.arbStamp s1.clk.hc) d.nextOrder)

/-- R427, R428, R488: 0x70: the value 0x5A restarts a module whose start is STOPPED; nothing else is acknowledged. -/
def execSmbusRestart (v : Byte) (pecOk : Bool) (s : State) : Out :=
  .next (if s.hubOn && pecOk && v == 0x5A && s.boot.phase == 15 then (s.powerCycle true).smbus (some []) else s.smbus none)

end Sys2Proof.Machine
end

