-- ==== Sys2Proof/Machine/RegWrite.lean ====
section
/-! DEFINITION. Register accesses by commands of their own (R9, R24, R25, R31 to R33, R59, R130, R316, R317, R481): what a write does to a
hub register, which writes of a host take effect, and a host's reads. -/

namespace Sys2Proof.Machine

/-! Hub registers. -/

/-- R9: a write of the W1C fields of a hub register. HUB_WDOG_FIREDk takes a host's only (R248). -/
def State.hubW1c (s : State) (off v : Nat) : State :=
  if off = 0x50018 then
    { s with time := { s.time with ppsloss := w1c s.time.ppsloss (bit v 3), ptmerr := w1c s.time.ptmerr (bit v 4),
                                   stepped := w1c s.time.stepped (bit v 5) } }
  else if off = 0x80000 then { s with safe := { s.safe with notice := w1c s.safe.notice (bit v 2) } }
  else if off = 0x90030 then { s with stops := { s.stops with partial' := w1c s.stops.partial' (bit v 4) } }
  else s

/-- R248: a W1C write of HUB_WDOG_FIREDk. -/
def State.firedW1c (s : State) (k v : Nat) : State :=
  { s with safe := { s.safe with fired := s.safe.fired.set k (s.safe.fired.get 0 k &&& ~~~(w64 v)) } }

/-- R463, R481: a write of TRC_OBS. One that sets EN over an area that is not populated HBM is ignored. -/
def State.obsWrite (s : State) (v : Nat) : State :=
  let o := s.obs
  let s1 := { s with obs := { o with en := bit v 0, base := if o.en then o.base else BitVec.ofNat 32 (bits v 20 32) } }
  if bit v 0 && !o.en && !s1.areaOk then s else s1

/-- R463, R481: a write of TRC_OBS_LEN. -/
def State.obsLenWrite (s : State) (v : Nat) : State :=
  if s.obs.en then s
  else { s with obs := { s.obs with logMib := BitVec.ofNat 16 (bits v 0 16), snapMib := BitVec.ofNat 16 (max 8 (bits v 16 16)) } }

/-- R478, R480, R481: a write of TRC_ECL_CTL. CANCEL is taken before RELEASE, and both before NOW. -/
def State.eclWrite (s : State) (v : Nat) : State :=
  let s1 := if bit v 2 then s.eclCancel else s
  let s2 := if bit v 1 then s1.eclRelease else s1
  if bit v 0 then s2.stopNow else s2

/-- R433: a write of BOOT_FLCTL. -/
def Boot.flWrite (b : Boot) (v : Nat) : Boot :=
  let b1 := { b with op := BitVec.ofNat 3 (bits v 0 3), block := BitVec.ofNat 24 (bits v 16 24), pc := BitVec.ofNat 9 (bits v 40 9) }
  if bit v 3 then b1.go else b1

/-- What a write of a doubleword by supervisor code of cell `g` does to a hub register. RO fields, reserved bits and offsets without
a register take nothing (R9, R10). -/
def State.hubRegWrite (s : State) (g : CellId) (off : Nat) (val : Word64) : State :=
  let v := val.toNat
  if off = 0x40008 then s.versionGo 0 v
  else if off = 0x40108 then s.versionGo 1 v
  else if off = 0x61008 then
    { s with opt := { s.opt with posts := s.opt.posts ++ [{ cell := g, addr := bits v 0 52, at' := s.clk.hc }] } }
  else if off = 0x70100 then { s with boot := s.boot.flWrite v }
  else if off = 0x70108 then { s with boot := { s.boot with src := BitVec.ofNat 52 v } }
  else if off = 0x80008 then { s with safe := { s.safe with period := if bits v 0 16 = 0 then 1 else BitVec.ofNat 16 v } }
  else if off = 0x90000 then s.obsWrite v
  else if off = 0x90008 then s.obsLenWrite v
  else if off = 0x90020 then
    let s1 := { s with stops := { s.stops with auto := bit v 1 } }
    if bit v 0 then s1.surveyGo else s1
  else if off = 0x90028 then s.eclWrite v
  else if off = 0x90048 then s.obswin (BitVec.ofNat 46 (bits v 6 46))
  else s.hubW1c off v

/-! A host's writes (R316). -/

/-- R31: the bits that a half covers. -/
def halfMask : Half → Nat
  | .low => 2 ^ 32 - 1
  | .high => (2 ^ 32 - 1) * 2 ^ 32
  | .whole => 2 ^ 64 - 1

/-- R316, R461, R481: bits of a hub register that a host's write through port `p` may change. -/
def hubHostMask (p : PortId) (off : Nat) : Nat :=
  if off % 8 ≠ 0 then 0
  else if 0x20008 ≤ off && off < 0x20028 then 2 ^ 64 - 1
  else if off = 0x40008 + 0x100 * p.toNat then 0x1FFFF
  else if 0x46000 ≤ off && off < 0x46400 then 2 ^ 64 - 1
  else if off = 0x50018 then 0x38
  else if off = 0x80000 then 4
  else if off = 0x90020 then 1
  else if off = 0x90028 then 7
  else if off = 0x90030 then 0x10
  else if off = 0x90048 then (2 ^ 46 - 1) * 2 ^ 6
  else 0

/-- R316, R461: bits of a cell register that a host's write may change. -/
def cellHostMask (off : Nat) : Nat :=
  if off % 8 ≠ 0 then 0
  else if off = 0x0110 then 2 ^ 8
  else if off = 0x0200 then 0xF
  else if off = 0x0208 then 0x1F1F1F
  else if off = 0x0420 then 2 ^ 40
  else if off = 0x0618 then 0x68
  else if off = 0x0A10 then 8
  else if off = 0x0A50 then 2 ^ 8
  else if off = 0x0C08 then 0x30
  else if off = 0x1000 then 1
  else if 0x1300 ≤ off && off < 0x1320 then 0xFFF
  else 0

/-- The bits of `v` that `m` marks, and those of `old` elsewhere. -/
def mergeBits (old v m : Nat) : Nat := (old - (old &&& m)) + (v &&& m)

/-- R317: a vector whose mask has been cleared sends its pending message. -/
def State.msixUnmask (s : State) (p : PortId) (k : Nat) : State :=
  let x := s.pport p
  if k < 64 && bit x.pend.toNat k && !bit (x.msixDw (2 * k + 1)) 32 then
    (s.updPport p fun x => { x with pend := x.pend &&& ~~~(w64 (2 ^ k)) }).msix p k
  else s

/-- R10, R317: the bits of doubleword `i` of the MSI-X table that hold something: of vector control only the mask bit (log 8). -/
def msixBits (i : Nat) : Nat := if i % 2 = 1 then 2 ^ 33 - 1 else 2 ^ 64 - 1

/-- R317: a write of doubleword `i` of the MSI-X table. -/
def State.msixWrite (s : State) (p : PortId) (i v m : Nat) : State :=
  (s.updPport p fun x => { x with msix := x.msix.set i (w64 (mergeBits (x.msixDw i) v (m &&& msixBits i))) }).msixUnmask p (i / 2)

/-- R316: the effect of a host's write of bits `m` of a hub register, all of which it may change. -/
def State.hubHostWrite (s : State) (p : PortId) (off v m : Nat) : State :=
  let w := v &&& m
  if 0x20008 ≤ off && off < 0x20028 then s.firedW1c ((off - 0x20008) / 8) w
  else if off = 0x40008 || off = 0x40108 then s.versionGo p w
  else if 0x46000 ≤ off && off < 0x46400 then s.msixWrite p ((off - 0x46000) / 8) v m
  else if off = 0x90020 then if bit w 0 then s.surveyGo else s
  else if off = 0x90028 then s.eclWrite w
  else if off = 0x90048 then s.obswin (BitVec.ofNat 46 (mergeBits (s.stops.winAddr.toNat * 2 ^ 6) v m / 2 ^ 6))
  else s.hubW1c off w

/-- R31: a half's 32 bits in their place of the doubleword. -/
def halfShift (h : Half) (v : Nat) : Nat := match h with | .high => v * 2 ^ 32 | _ => v

/-- R62, R177: a write of a cell register performed in this cc. The floating-point registers take it at the end of the cc, so that what is
issued or drawn in it goes by the value before; `outer` says that it comes from outside the cell. -/
def State.cellRegPost (s : State) (g : CellId) (off : Nat) (v : Word64) (outer : Bool) : State :=
  if 0x0200 ≤ off && off < 0x0220 then s.updCell g fun c => c.writeAt off v s.clk.cc outer else s.cellRegWrite g off v

/-- R31, R33, R316: a host's write at a device address of BAR2. One that may change nothing is ignored and counted. -/
def State.hostRegWrite (s : State) (p : PortId) (a : Nat) (v : Nat) (h : Half) : State :=
  let v := halfShift h v
  if a < 0xF0000000 || 0xF1000000 ≤ a then s
  else if a < 0xF0800000 then
    let m := hubHostMask p (a - 0xF0000000) &&& halfMask h
    if m = 0 then s.wdrop p else s.hubHostWrite p (a - 0xF0000000) v m
  else
    let off := (a - 0xF0800000) % 0x8000
    let m := cellHostMask off &&& halfMask h
    if m = 0 then s.wdrop p else s.cellRegPost (BitVec.ofNat 8 ((a - 0xF0800000) / 0x8000)) off (w64 (v &&& m)) true

/-! A pilot's writes. -/

/-- R442, R457: a store into a slice or mailbox of a cell in reset is lost: its record marks the writer's command. -/
def State.lostStore (s : State) (g : CellId) (a : Nat) : State := s.raise g mechFlit actCommand 2 0 0 a

/-- R25, R220, R457: a pilot's write, whose level was judged when it was issued, is performed at a register. -/
def State.pilotRegWrite (s : State) (g : CellId) (a : Nat) (v : Word64) : State :=
  match place s.hbmBytes g a with
  | .cellReg h off => if off = 0x0100 && h ≠ g && s.cellDown h then s.lostStore g a else s.cellRegPost h off v (h != g)
  | .hubReg off => s.hubRegWrite g off v
  | _ => s

/-! The commands. -/

/-- R25: a word posted to cell `g`'s mailbox arrives: appended, or dropped when the mailbox is full; a host's is ignored and counted. -/
def execCellMboxIn (g : CellId) (by' : Initiator) (w : Word64) (s : State) : Out :=
  match by' with
  | .host p => .next (if s.barOpen p then s.wdrop p else s)
  | .pilot h =>
    if !s.dispOn then .next s
    else if s.cellDown g then .next (if h = g then s else s.lostStore h (0xF0800000 + g.toNat * 0x8000 + 0x100))
    else .next (s.updCell g fun c => c.mboxAppend w)

/-- R206, R209 to R211: cell `h`'s pilot loads the register at offset `off` of cell `g`'s block into `rd`: it waits as a load does, and goes to its
own block or, as a request, to the other cell's. -/
def State.regLoad (s : State) (h g : CellId) (off : Nat) (rd : BitVec 5) : State :=
  let u := { usesS [] rd (if h = g then 4 else 0) with mem := true }
  let d : LoadDest := { wide := false, reg := rd, ext := .zero }
  let a := regAddr h g off
  if (s.cell h).pil.remoteHolds u then s.pilotWhy h 1
  else if (s.cell h).pil.hold then s.pilotWhy h 4
  else
    let s1 := s.waitReady h u
    if h = g then s1.ownRegLoad h d off a
    else match s1.remoteLoad h d a 8 false with | .ok t _ _ _ => t | _ => s1.pilotWhy h 4

/-- R24, R25, R32: a read of CELL_MBOX_HEAD: a pilot's removes the oldest word as it samples and brings it to `rd`, where user code reads its own
cell's only; a host's returns 0 and removes none. -/
def execCellMboxHead (g : CellId) (by' : Initiator) (rd : BitVec 5) (s : State) : Out :=
  match by' with
  | .host p => .next (if s.barOpen p then { s with pins := { s.pins with read := some (p, 0) } } else s)
  | .pilot h =>
    if !s.live h then .next s
    else if !(s.cell h).exc.pl && h ≠ g then .next (s.deny h xPriv false (regAddr h g 0x0108))
    else .next (s.regLoad h g 0x0108 rd)

/-- R32: a register write by cell `g`'s own pilot: user code raises PRIV. -/
def State.ownWrite (s : State) (g : CellId) (off : Nat) (v : Word64) : State :=
  if !s.live g then s
  else if !(s.cell g).exc.pl then s.deny g xPriv true (0xFFFF8000 + off)
  else s.cellRegPost g off v false

/-- R130: a supervisor write of VEC_CFG. -/
def execVecCfgWrite (g : CellId) (v : Word64) (s : State) : Out := .next (s.ownWrite g 0x0600 v)

/-- R59, R61, R62: a write of a generator's state, at the end of the cc; 0 is stored as 1. -/
def execSrStateWrite (g : CellId) (which : SrGen) (v : Word64) (s : State) : Out :=
  .next (s.ownWrite g (match which with | .vector => 0x0210 | .drain => 0x0218) v)

/-- R31, R32, R208: a register write of cell `g`'s pilot, of a doubleword or of a half: PRIV or ACCESS, or it is performed. -/
def State.pilotWrite (s : State) (g : CellId) (a : Nat) (v : Word64) (half : Half) : State :=
  if !s.live g then s
  else
    match s.accessFault g a (if half = .whole then 8 else 4) true true with
    | some (code, _, addr) => s.deny g code true addr
    | none => s.pilotRegWrite g a v

/-- R9, R31, R316: a write of a register with no row of its own; `v` is the doubleword, or a half's 32 bits. -/
def execRegisterWrite (by' : Initiator) (a : BitVec 52) (v : Word64) (half : Half) (s : State) : Out :=
  match by' with
  | .host p => .next (if s.barOpen p then s.hostRegWrite p a.toNat v.toNat half else s)
  | .pilot g => .next (s.pilotWrite g a.toNat v half)

/-- R25, R31, R33: what a host reads at BAR2 offset `x`: a whole register; 0 where none lies. -/
def State.barRead (s : State) (p : PortId) (x : Nat) : Nat :=
  if x < 0x800000 then (s.hubRegRead (some p) x).getD 0
  else if (x - 0x800000) % 0x8000 = 0x0108 then 0
  else (s.cellRegRead (BitVec.ofNat 8 ((x - 0x800000) / 0x8000)) ((x - 0x800000) % 0x8000)).getD 0

/-- R9, R31: RC fields that a host's read of a register clears. -/
def State.barClear (s : State) (x : Nat) (low high : Bool) : State :=
  if x < 0x800000 then s.hubRegClear x low high
  else if (x - 0x800000) % 0x8000 = 0x0110 && low then
    s.updCell (BitVec.ofNat 8 ((x - 0x800000) / 0x8000)) fun c => c.regReadEffect 0x0110
  else s

/-- R31: the part of a doubleword that a half names. -/
def halfOfDw (h : Half) (v : Nat) : Nat :=
  match h with | .low => bits v 0 32 | .high => bits v 32 32 | .whole => v

/-- R9, R31, R33: a host's read through BAR2: the value as it stands, then RC fields of the half read are cleared; R315: BAR0 reads as
zeros. -/
def execRegisterRead (p : PortId) (a : BarAddr) (half : Half) (s : State) : Out :=
  if !s.barOpen p then .next s
  else
    let answer (v : Nat) : State := { s with pins := { s.pins with read := some (p, w64 v) } }
    match a with
    | .bar0 _ => .next (answer 0)
    | .bar2 a => .next ((answer (halfOfDw half (s.barRead p a.toNat))).barClear a.toNat (half != Half.high) (half != Half.low))

end Sys2Proof.Machine
end

