-- ==== Sys2Proof/Machine/Remote.lean ====
section
/-! DEFINITION. Remote requests of a pilot on their way (R22, R210, R211, R213, R272, R440, R442, R443, R457): their performance at the
home, the response or acknowledgement, and what stands for one that is lost. -/

namespace Sys2Proof.Machine

/-- The outstanding request `q` of cell `g`. -/
def State.remote (s : State) (g : CellId) (q : Nat) : Option Remote := (s.cell g).pil.remotes.find? fun r => r.req == q

/-- Replace an outstanding request. -/
def Cell.setRemote (c : Cell) (r : Remote) : Cell :=
  { c with pil := { c.pil with remotes := c.pil.remotes.map fun x => if x.req = r.req then r else x } }

/-- R22, R293, R294: whether an older request of a pilot is performed before a younger one: they touch one byte, or go to the registers of one
cell or of the hub. Requests of different bytes may be performed in any order, in one slice too (log 21). -/
def keepsOrder (hbmBytes : Nat) (g : CellId) (x r : Remote) : Bool :=
  overlaps x.addr x.len r.addr r.len ||
    (match place hbmBytes g x.addr, place hbmBytes g r.addr with
    | .cellReg a _, .cellReg b _ => a == b
    | .hubReg _, .hubReg _ => true
    | _, _ => false)

/-- R22, R293: whether an older request that goes first has not been performed yet. -/
def State.overtakes (s : State) (g : CellId) (r : Remote) : Bool :=
  (s.cell g).pil.remotes.any fun x => decide (x.req < r.req) && !x.performed && !x.lost && keepsOrder s.hbmBytes g x r

/-- R9, R24, R210: a load of a register at its home. -/
def State.fetchReg (s : State) (pl : Place) : State × Nat :=
  match pl with
  | .cellReg h off => (s.updCell h fun c => c.regReadEffect off, (s.cellRegRead h off).getD 0)
  | .hubReg off => (s.hubRegClear off true true, (s.hubRegRead none off).getD 0)
  | _ => (s, 0)

/-- R210, R256: whether an HBM load of cell `g` hits, decided as its request reaches the tile cache. -/
def State.hbmHit (s : State) (g : CellId) (r : Remote) : Bool :=
  match place s.hbmBytes g r.addr with
  | .hbm o => r.load && !r.acquire && (((s.sweep (tileOf g)).hbm.cache (tileOf g)).find (o / 256)).isSome
  | _ => false

/-- R205, R210, R213: the first cc in which the answer of a request can reach its pilot; the upper half of a split access takes 2 cc more. -/
def State.backAt (s : State) (g : CellId) (r : Remote) : Nat :=
  let pl := place s.hbmBytes g r.addr
  let chan := match pl with | .hbm o => (s.hbm.chanOf o).map Prod.fst | _ => none
  r.cc + s.clk.remoteLat g chan pl (s.hbmHit g r) + (if r.at' = 0 then 0 else 2)

/-- R210: a load samples its home. -/
def State.performLoad (s : State) (g : CellId) (r : Remote) : State :=
  let r := { r with performed := true, back := s.backAt g r }
  let pl := place s.hbmBytes g r.addr
  match pl with
  | .cellReg _ _ | .hubReg _ =>
    let x := s.fetchReg pl
    x.1.updCell g fun c => c.setRemote { r with got := some (leBytes x.2 r.len) }
  | _ =>
    let x := s.fetchHome g pl r.len r.acquire
    let r1 := match x.2 with
      | .data bs => { r with got := some bs }
      | .ecc => { r with err := true }
      | .refused => r
    x.1.updCell g fun c => c.setRemote r1

/-- R210, R252, R272, R457: a store is performed at its home: refused by a fenced pseudo-channel, lost in a cell in reset; each cc that it
loses its bank makes its acknowledgement a cc later. -/
def State.performStore (s : State) (g : CellId) (r : Remote) : State :=
  let r := { r with performed := true, back := s.backAt g r }
  let pl := place s.hbmBytes g r.addr
  let s1 := s.updCell g fun c => c.setRemote r
  match pl with
  | .cellReg _ _ => s1.pilotRegWrite g r.addr (w64 (leNat r.bytes))
  | .hubReg _ => s1.pilotRegWrite g r.addr (w64 (leNat r.bytes))
  | .slice h _ =>
    if s.cellDown h then s1.lostStore g r.addr
    else
      let s2 := s.writeFourth g 0 pl r.bytes
      s2.updCell g fun c => c.setRemote { r with back := r.back + (s2.clk.cc - s.clk.cc) }
  | .hbm o =>
    if s.hbm.fencedAt o then s.updCell g fun c => c.setRemote { r with err := true }
    else s1.writeHome g 0 pl r.bytes
  | _ => s1

/-- R210: request `r` is performed at its home. -/
def State.perform (s : State) (g : CellId) (r : Remote) : State := if r.load then s.performLoad g r else s.performStore g r

/-- R446, R476: the fabric runs: the module does, and is not frozen. -/
def State.fabricOn (s : State) : Bool := s.clk.powered && !s.clk.stopped && !s.clk.frozen

/-- R455: a request that cell `g` had sent before it was reset is delivered; its answer is discarded. -/
def State.performOrphan (s : State) (g : CellId) (r : Remote) : State :=
  (s.perform g r).updCell g fun c => { c with pil := { c.pil with remotes := c.pil.remotes.filter fun x => x.req != r.req } }

/-- R199, R210, R455: request `q` of cell `g` reaches its home, no earlier than it was issued, which samples or performs it. One that is not
outstanding, or that an older one of its route precedes, does not. -/
def execRemoteRequest (g : CellId) (q : Nat) (s : State) : Out :=
  match s.remote g q with
  | none => .next s
  | some r =>
    if !s.fabricOn || r.performed || r.lost || s.overtakes g r then .next s
    else
      let s1 := s.until r.cc
      match s1.remote g q with
      | none => .next s1
      | some r => .next (if !s1.fabricOn then s1 else if s1.cellDown g then s1.performOrphan g r else s1.perform g r)

/-- The other half of a split access (R213). -/
def State.mateOf (s : State) (g : CellId) (r : Remote) : Option Remote := r.mate.bind fun q => s.remote g q

/-- R211, R298: requests end: they are no longer outstanding, and what an acquire load held goes on. -/
def Cell.endRemotes (c : Cell) (p : Nat → Bool) (acquire : Bool) : Cell :=
  { c with pil := { c.pil with remotes := c.pil.remotes.filter fun x => !p x.req,
                               hold := if acquire then c.pil.acqr.isSome else c.pil.hold } }

/-- The requests of one access: itself and its other half. -/
def Remote.both (r : Remote) (q : Nat) : Bool := q == r.req || r.mate == some q

/-- R213: the bytes of a load, of both halves; none where one of them brought none. -/
def joinHalves (r : Remote) (m : Option Remote) : Option (List Byte) :=
  match m with
  | none => r.got
  | some x =>
    match r.got, x.got with
    | some a, some b => some (if r.at' < x.at' then a ++ b else b ++ a)
    | _, _ => none

/-- R211, R213: whether request `r` and its other half have both been performed. -/
def State.answered (s : State) (g : CellId) (r : Remote) : Bool :=
  r.performed && (match s.mateOf g r with | some x => x.performed | none => true)

/-- R199, R211: what a remote load has brought reaches custom instruction `m`: its micro-ops behind the load run, and its results land. -/
def State.microAnswer (s : State) (g : CellId) (m : MicroRun) (got : Fetched) (a : Nat) : State :=
  let drop (c : Cell) (ws : List PilotWb) : Cell :=
    { c with pil := { c.pil with micros := c.pil.micros.filter fun x => x.req != m.req, wbs := c.pil.wbs ++ ws } }
  let due := s.clk.cc - 1 + m.due
  match got with
  | .data bs => s.updCell g fun c => drop c ((m.resume (leNat bs)).results due)
  | f => (s.updCell g fun c => drop c []).badRead g f a due

/-- Whether the running repeat waits for a request that `p` marks. -/
def Pilot.repAwaits (pil : Pilot) (p : Nat → Bool) : Bool :=
  let hit (x : RepRead) : Bool := match x with | .wait q => p q | _ => false
  match pil.rep with
  | some r => match r.waits with | some (x, y) => hit x || hit y | none => false
  | none => false

/-- R207, R210, R211, R213, R272, R440: what a load brings, or that it brings nothing, has reached the load's register at the end of the cc
before this one, or reaches the custom instruction or the repeat that asked for it; a machine check follows where it brings nothing. -/
def State.deliver (s : State) (g : CellId) (r : Remote) (got : Fetched) : State :=
  let p := (s.cell g).pil
  match r.dest, got with
  | some d, .data bs => s.updCell g fun c => { c with pil := c.pil.writeReg d.wide d.reg (d.value bs) }
  | some _, f => s.badRead g f r.addr (s.clk.cc - 1)
  | none, f =>
    match p.micros.find? fun m => m.req.any r.both with
    | some m => s.microAnswer g m f r.addr
    | none =>
      if p.repAwaits r.both then s.repAnswer g r.both f r.addr
      else match f with | .data _ => s | e => s.badRead g e r.addr (s.clk.cc - 1)

/-- R211, R213: what a load's response brings, of both halves. -/
def State.fetched (s : State) (g : CellId) (r : Remote) : Fetched :=
  let m := s.mateOf g r
  match joinHalves r m with
  | some bs => .data bs
  | none => if r.err || (match m with | some x => x.err | none => false) then .ecc else .refused

/-- R211, R213: the response of a load arrives: the request, with its other half, is no longer outstanding. -/
def State.respond (s : State) (g : CellId) (r : Remote) : State :=
  (s.updCell g fun c => c.endRemotes r.both r.acquire).deliver g r (s.fetched g r)

/-- R210, R213: the first cc in which the whole answer of request `r` can reach its pilot. -/
def State.answerAt (s : State) (g : CellId) (r : Remote) : Nat :=
  max r.back (match s.mateOf g r with | some x => if r.load then x.back else 0 | none => 0)

/-- R210, R211: the answer of request `q`, a load's or a store's, reaches cell `g` no earlier than R210 gives: `f` says what it does. Before
the home has performed the request nothing happens. -/
def State.answerIn (s : State) (g : CellId) (q : Nat) (load : Bool) (f : State → Remote → State) : State :=
  match s.remote g q with
  | none => s
  | some r =>
    if s.live g && r.load == load && (if load then s.answered g r else r.performed) then
      let s1 := s.until (s.answerAt g r)
      match s1.remote g q with
      | some r1 => if s1.live g then f s1 r1 else s1
      | none => s1
    else s

/-- R211: the response of load `q` of cell `g` arrives. Before both halves have been performed nothing happens. -/
def execRemoteResponse (g : CellId) (q : Nat) (s : State) : Out := .next (s.answerIn g q true fun s r => s.respond g r)

/-- R211, R272: the acknowledgement of store `r` arrives; a refused store raises a machine check. -/
def State.acked (s : State) (g : CellId) (r : Remote) : State :=
  s.updCell g fun c =>
    let c1 := c.endRemotes (· == r.req) false
    if r.err then { c1 with exc := { c1.exc with mchk := true } } else c1

/-- R211, R272: the acknowledgement of store `q` of cell `g` arrives. Before the store has been performed nothing happens. -/
def execStoreAck (g : CellId) (q : Nat) (s : State) : Out := .next (s.answerIn g q false fun s r => s.acked g r)

/-- R442, R443: request `r` gets no answer: a write counts as acknowledged, a read as uncorrectable. -/
def State.unanswered (s : State) (g : CellId) (r : Remote) : State :=
  if r.load then (s.updCell g fun c => c.endRemotes r.both r.acquire).deliver g r .refused
  else s.updCell g fun c => c.endRemotes (· == r.req) false

/-- Whether a message is an error record. -/
def CellMsg.isRec : CellMsg → Bool
  | .record _ => true
  | _ => false

/-- R442: a router that owes cell `g` a loss acknowledgement of request `q`, and whose records the supervisor has admitted. -/
def State.owedBy (s : State) (g : CellId) (q : Nat) : Option Nat :=
  (s.cells.find? fun e => !e.2.out.any CellMsg.isRec && e.2.router.owed.any fun o => o == (Endpoint.cell g, q)).map Prod.fst

/-- R442: the hub, or a router, gives the loss acknowledgement of request `q` of cell `g` that it owes; none where none is owed. -/
def State.payLoss (s : State) (g : CellId) (q : Nat) : Option State :=
  if s.hubRecs.isEmpty && s.xbar.owed.any (· == (Endpoint.cell g, q)) then
    some { s with xbar := { s.xbar with owed := s.xbar.owed.erase (Endpoint.cell g, q) } }
  else
    (s.owedBy g q).map fun n => s.updCell (BitVec.ofNat 8 n) fun c =>
      { c with router := { c.router with owed := c.router.owed.erase (Endpoint.cell g, q) } }

/-! Requests of a mover. They are numbered from 2^64 on, by the command's ticket and by whether they read or write (log 73). -/

/-- The command that request `q` of cell `g`'s mover belongs to, while it is under way. -/
def Cell.movOf (c : Cell) (q : Nat) : Option MovCmd :=
  if q < 2 ^ 64 then none else c.mov.cmds.find? fun m => m.started && m.ticket == (q - 2 ^ 64) / 2

/-- R442, R443: a mover's request gets no answer: a write (odd `q`) counts as acknowledged, a read as uncorrectable (R440). -/
def State.movUnanswered (s : State) (g : CellId) (q : Nat) (m : MovCmd) : State := if q % 2 = 1 then s else s.movFail g 5 m.src m.ticket

/-- R442: a loss acknowledgement of request `q` reaches cell `g`. Where none is owed nothing happens. -/
def execLossAck (g : CellId) (q : Nat) (s : State) : Out :=
  match (if s.live g then s.payLoss g q else none) with
  | none => .next s
  | some s1 =>
    match s1.remote g q with
    | some r => .next (s1.unanswered g r)
    | none => .next (match (s1.cell g).movOf q with | some m => s1.movUnanswered g q m | none => s1)

/-- R443: a mover's request has had no answer within 20 µs of its command's start. -/
def State.movTimeout (s : State) (g : CellId) (q : Nat) : State :=
  match (s.cell g).movOf q with
  | some m =>
    if s.live g && decide (m.since + 36000 ≤ s.clk.hc) then
      (s.movUnanswered g q m).raise g mechTimeout actCommand 2 6 0 (if q % 2 = 1 then m.dst else m.src)
    else s
  | none => s

/-- R443: request `q` of cell `g` has had no answer within 20 µs: it ends, and a record names the requester. Before that nothing
happens. -/
def execRequestTimeout (g : CellId) (q : Nat) (s : State) : Out :=
  match s.remote g q with
  | none => .next (s.movTimeout g q)
  | some r =>
    if s.live g && decide (r.since + 36000 ≤ s.clk.hc) then
      .next ((s.unanswered g r).raise g mechTimeout actCommand 2 0 0 r.addr)
    else .next s

end Sys2Proof.Machine
end

