-- ==== Sys2Proof/Machine/Sync.lean ====
section
/-! DEFINITION. Release stores and fences (R170, R171, R260, R295, R297, R300, R405). -/

namespace Sys2Proof.Machine

/-- R295: whether a home outside the cell's own lies in the reach of a scope. -/
def inReach (g : CellId) (scope : BitVec 2) (pl : Place) : Bool :=
  match scope.toNat with
  | 0 => false
  | 1 =>
    match pl with
    | .slice h _ => tileOf h == tileOf g
    | .cellReg h _ => tileOf h == tileOf g
    | .hbm _ => true
    | _ => false
  | _ => true

/-- R297: whether a release at `scope` still waits for a response or an acknowledgement: a remote load, a remote store in reach, or,
at chain scope, a PUT without STATUS. -/
def State.releaseWaits (s : State) (g : CellId) (scope : BitVec 2) : Bool :=
  let p := (s.cell g).pil
  p.remoteLoads || (p.remotes.any fun r => !r.load && inReach g scope (place s.hbmBytes g r.addr))
    || (scope == 3 && s.putsOut g)

/-- R297: the first cc in which every earlier own load has returned and every earlier own store is performed; a store home lies in
every reach (R295). -/
def Cell.settledAt (c : Cell) : Nat := max c.pil.loadsDone c.storesDone

/-- R405: cc that the chain ordering point costs beyond module scope. -/
def chainCost (scope : BitVec 2) : Nat := if scope = 3 then 1 else 0

/-- R170, R171, R260, R297: a release store: after at least one cc of wait, its doubleword is stored. -/
def execStrel (g : CellId) (f : YFmt) (s : State) : Out :=
  let u : Uses := { s := [f.ra, f.rd], w := [], dst := none, lat := 1, unitFree := 0, mem := true }
  .next (s.issueFor 4 g u (encY 0b01 f) false
    (fun s => max (max (s.clk.cc + 1 + chainCost f.scope) (s.cell g).settledAt) (s.memPort g (syncAddr (s.cell g).pil f))) fun s =>
    let p := (s.cell g).pil
    let a := syncAddr p f
    if s.releaseWaits g f.scope then .stall 4
    else
      match s.syncFault g a true with
      | some r => r
      | none => s.store g a (leBytes (p.readS f.rd).toNat 8) true)

/-- R170, R260, R300: a fence: it waits as STREL does, and later memory accesses issue from the next cc on, at chain scope
from the one after it. -/
def execFence (g : CellId) (f : YFmt) (s : State) : Out :=
  .next (s.issueFor 4 g { Uses.none' with mem := true } (encY 0b10 f) (f.rd != 0 || f.ra != 0 || f.imm != 0)
    (fun s => (s.cell g).settledAt) fun s =>
    if s.releaseWaits g f.scope then .stall 4 else .ok (s.holdUntil g (s.clk.cc + 1 + chainCost f.scope)) 1 none 0)

end Sys2Proof.Machine
end

