-- ==== Sys2Proof/Machine/VecAlu.lean ====
section
/-! DEFINITION. Meanings of the vector unit's elementwise, conversion, reduction, movement and predicate instructions (R132 to R139,
R153). -/

namespace Sys2Proof.Machine

/-- R148: two cc for integers, the float latency otherwise. -/
def vLat2 (t : Elem) : Nat := if t.isFloat then vfLat t else 2

/-- R133: integers keep the low w bits. -/
def wrapI (t : Elem) (v : Int) : FRes := ⟨t.encodeI v, 0⟩

/-- R133: shift left by vb mod w. -/
def vshlElem (t : Elem) (x y : Nat) : FRes := ⟨x <<< (y % t.width), 0⟩

/-- R133: shift right by vb mod w, arithmetic for signed types. -/
def vshrElem (t : Elem) (x y : Nat) : FRes := wrapI t (t.decodeI x >>> (y % t.width))

/-- R133: va + vb. -/
def execVadd (g : CellId) (f : VrFmt) (s : State) : Out :=
  .next (vrShape 0x00 .both false (vLat2) (fun t r x y => elemOp t (fun a b => t.fadd r false a b) (fun a b => a + b) x y) g f s)

/-- R133: va − vb. -/
def execVsub (g : CellId) (f : VrFmt) (s : State) : Out :=
  .next (vrShape 0x01 .both false (vLat2) (fun t r x y => elemOp t (fun a b => t.fadd r false a b.neg) (fun a b => a - b) x y) g f s)

/-- R133: va × vb. -/
def execVmul (g : CellId) (f : VrFmt) (s : State) : Out :=
  .next (vrShape 0x02 .both false (fun t => if t.isFloat then vfLat t else 4) (fun t r x y => elemOp t (fun a b => t.fmul r a b) (fun a b => a * b) x y) g f s)

/-- R133: the smaller; −0 < +0. -/
def execVmin (g : CellId) (f : VrFmt) (s : State) : Out :=
  .next (vrShape 0x03 .both false (vLat2) (fun t _ x y => elemMinMax t false x y) g f s)

/-- R133: the larger; −0 < +0. -/
def execVmax (g : CellId) (f : VrFmt) (s : State) : Out :=
  .next (vrShape 0x04 .both false (vLat2) (fun t _ x y => elemMinMax t true x y) g f s)

/-- R133: |va|; the most negative integer wraps (R136). -/
def execVabs (g : CellId) (f : VrFmt) (s : State) : Out :=
  .next (vrShape 0x05 .both true (vLat2) (fun t _ x _ => if t.isFloat then absElem t x else wrapI t (t.decodeI x).natAbs) g f s)

/-- R133: −va. -/
def execVneg (g : CellId) (f : VrFmt) (s : State) : Out :=
  .next (vrShape 0x06 .both true (vLat2) (fun t _ x _ => if t.isFloat then t.fsign true x else wrapI t (-t.decodeI x)) g f s)

/-- R133: bitwise, integer types. -/
def execVand (g : CellId) (f : VrFmt) (s : State) : Out :=
  .next (vrShape 0x08 .int false (fun _ => 2) (fun _ _ x y => ⟨x &&& y, 0⟩) g f s)

/-- R133: bitwise, integer types. -/
def execVor (g : CellId) (f : VrFmt) (s : State) : Out :=
  .next (vrShape 0x09 .int false (fun _ => 2) (fun _ _ x y => ⟨x ||| y, 0⟩) g f s)

/-- R133: bitwise, integer types. -/
def execVxor (g : CellId) (f : VrFmt) (s : State) : Out :=
  .next (vrShape 0x0A .int false (fun _ => 2) (fun _ _ x y => ⟨x ^^^ y, 0⟩) g f s)

/-- R133: va shifted left by vb mod w. -/
def execVshl (g : CellId) (f : VrFmt) (s : State) : Out :=
  .next (vrShape 0x0B .int false (fun _ => 2) (fun t _ x y => vshlElem t x y) g f s)

/-- R133: va shifted right by vb mod w. -/
def execVshr (g : CellId) (f : VrFmt) (s : State) : Out :=
  .next (vrShape 0x0C .int false (fun _ => 2) (fun t _ x y => vshrElem t x y) g f s)

/-- R133: reciprocal estimate (R137). -/
def execVfrcp (g : CellId) (f : VrFmt) (s : State) : Out :=
  .next (vrShape 0x18 .float true (fun _ => 5) (fun t _ x _ => t.frcp (t.decodeF x)) g f s)

/-- R133: reciprocal square-root estimate (R137). -/
def execVfrsq (g : CellId) (f : VrFmt) (s : State) : Out :=
  .next (vrShape 0x19 .float true (fun _ => 5) (fun t _ x _ => t.frsq (t.decodeF x)) g f s)

/-- R133: vb where mp is 1, else va, for every element below VL. -/
def execVmerge (g : CellId) (f : VrFmt) (s : State) : Out :=
  .next (vecIssue g (vecUses (s.cell g).vec (f.sc == 1) f.vb) (encVr 0x0D f) (fun c =>
    let w := c.vec.type.width
    let a := c.vec.reg f.va
    let m := c.vec.mreg f.mp
    some (c.plainOut f.vd w 2 ((List.range c.vec.vl).map fun i =>
      (i, if bit m i then c.vecB f.vb f.sc i else elemAt a w i)))) s)

/-- R133: md bit := va = vb. -/
def execVcmpeq (g : CellId) (f : VrFmt) (s : State) : Out := .next (vcmpShape 0x10 .both .eq g f s)

/-- R133: md bit := va ≠ vb. -/
def execVcmpne (g : CellId) (f : VrFmt) (s : State) : Out := .next (vcmpShape 0x11 .both .ne g f s)

/-- R133: md bit := va < vb. -/
def execVcmplt (g : CellId) (f : VrFmt) (s : State) : Out := .next (vcmpShape 0x12 .both .lt g f s)

/-- R133: md bit := va ≤ vb. -/
def execVcmple (g : CellId) (f : VrFmt) (s : State) : Out := .next (vcmpShape 0x13 .both .le g f s)

/-- R133: md bit := va or vb is NaN. -/
def execVcmpun (g : CellId) (f : VrFmt) (s : State) : Out := .next (vcmpShape 0x14 .float .un g f s)

/-- R132: vd := va × vb + vd. -/
def execVfma (g : CellId) (f : VfFmt) (s : State) : Out := .next (vfShape 0 false false g f s)

/-- R132: vd := va × vb − vd. -/
def execVfms (g : CellId) (f : VfFmt) (s : State) : Out := .next (vfShape 1 false true g f s)

/-- R132: vd := −(va × vb) + vd. -/
def execVnfma (g : CellId) (f : VfFmt) (s : State) : Out := .next (vfShape 2 true false g f s)

/-- R138: the element pairs of a conversion: source and destination index, where both lie in their registers. -/
def cvtPairs (sw dw part : Nat) (act : List Nat) : List (Nat × Nat) :=
  let c := 8192 / max sw dw
  (act.map fun i => if dw ≤ sw then (i, i + part * c) else (i + part * c, i)).filter fun e =>
    (e.1 + 1) * sw ≤ 8192 && (e.2 + 1) * dw ≤ 8192

/-- R138: VCVT. Under SR each active element of a float result of 16 bits or less takes a draw, of an exact one too (R59; log 11). -/
def execVcvt (g : CellId) (f : VcFmt) (s : State) : Out :=
  .next (vecIssue g Uses.none' (encVc f) (fun c =>
    match Elem.ofCode f.src.toNat, Elem.ofCode f.dst.toNat with
    | some src, some dst =>
      let hi := max src.width dst.width
      let lo := min src.width dst.width
      if 8192 / hi < c.vec.vl || (hi + lo - 1) / lo ≤ f.part.toNat then none
      else
        let ps := cvtPairs src.width dst.width f.part.toNat (c.vec.active f.mp)
        let v := c.vec.reg f.vs
        let l := runLanes c.fp dst.takesSr (ps.map Prod.fst) fun i r =>
          convertElem src dst r (elemAt v src.width i)
        let out := (ps.zip l.out).map fun e => (e.1.2, e.2.2)
        some { writes := [laneWrite f.vd dst.width out], lat := 4, flags := l.flags, srv := l.srv, ew := dst.width,
               scalar := none }
    | _, _ => none) s)

/-- R139: largest PART of an element width. -/
def vbqParts (w : Nat) : Nat := if w = 8 then 3 else if w = 6 then 5 else 7

/-- R55: one block of VBQ: elements `is` of the source, quantised with their common scale. -/
def vbqBlock (fp : FpState) (fmt : Elem) (v : Nat) (is : List Nat) : Nat × Lanes :=
  let vals := is.map fun i => Elem.fp32.decodeF (elemAt v 32 i)
  let special := vals.any fun x => match x with | .fin _ _ _ => false | _ => true
  let x := blockExp fmt vals
  let l := runLanes fp fmt.takesSr is fun i r =>
    if special then ⟨0, 0⟩ else quantElem fmt r x (Elem.fp32.decodeF (elemAt v 32 i))
  (if special then 0xFF else (x + 127).toNat, { l with flags := if special then snanIV vals else l.flags })

/-- What VBQ has formed so far. -/
structure VbqAcc where
  srv : Word32
  elems : List (Nat × Nat)
  codes : List (Nat × Nat)
  flags : FFlags

/-- R139: VBQ. -/
def execVbq (g : CellId) (f : VqFmt) (s : State) : Out :=
  .next (vecIssue g Uses.none' (encVq f) (fun c =>
    let vl := c.vec.vl
    let k := f.fmt.toNat
    let fmt := (Elem.ofCode k).getD .e4m3
    let part := f.part.toNat
    if c.vec.vt != 1 || 256 < vl || !((5 ≤ k && k ≤ 9) || k = 11) || vbqParts fmt.width < part || f.low != 0 then none
    else
      let v := c.vec.reg f.vs
      let a := (List.range ((vl + 31) / 32)).foldl (fun (a : VbqAcc) j =>
        let is := (List.range (min 32 (vl - 32 * j))).map fun i => 32 * j + i
        let b := vbqBlock { c.fp with srv := a.srv } fmt v is
        { srv := b.2.srv, elems := a.elems ++ b.2.out, codes := a.codes ++ [(part * 8 + j, b.1)],
          flags := a.flags ||| b.2.flags }) { srv := c.fp.srv, elems := [], codes := [], flags := 0 }
      let es := (a.elems.map fun e => (e.1 + part * 256, e.2)).filter fun e => (e.1 + 1) * fmt.width ≤ 8192
      some { writes := [laneWrite f.vd fmt.width es, laneWrite f.ve 8 a.codes], lat := 8, flags := a.flags, srv := a.srv,
             ew := fmt.width, scalar := none }) s)

/-- R134: VT := b, VL := min(sa, VLMAX), sd := VL. -/
def execVsetl (g : CellId) (f : VsFmt) (s : State) : Out :=
  .next (s.issue g (usesS [f.a] f.d 3) (encVs 0x00 f) false noPort fun s =>
    let code := f.b.toNat
    if f.mp != 0 || !(code < 16 && vtValid code) then .trap xIllegal false false 0 0
    else
      .ok (s.updCell g fun c =>
        let vl := min (c.pil.readS f.a).toNat (vlmax code)
        { c with vec := { c.vec with vt := BitVec.ofNat 4 code, vl := vl }
                 pil := c.pil.vecResult false f.d (BitVec.ofNat 128 vl) 3 s.clk.cc }) 1 none 0)

/-- Uses of a function whose result is scalar register `r` of the s file, or of the file VT names. -/
def scalarUses (byType : Bool) (src : List (BitVec 5)) (r : BitVec 5) (v : Vec) : Uses :=
  { Uses.none' with s := src, dst := some (byType && v.type.isFloat, r), lat := 3 }

/-- R134: sd := VL + VT × 2¹⁶. -/
def execVgetl (g : CellId) (f : VsFmt) (s : State) : Out :=
  .next (vsShape 0x01 (scalarUses false [] f.d) g f (fun c =>
    if f.mp != 0 || f.a != 0 || f.b != 0 then none
    else some (c.scalarOut false f.d (c.vec.vl + c.vec.vt.toNat * 2 ^ 16))) s)

/-- R148: latency of VREDSUM. -/
def redLat (t : Elem) : Nat := if !t.isFloat then 6 else if t = .fp64 then 14 else if t = .fp32 then 16 else 18

/-- R153: the sum of active elements to element sb of vd. -/
def execVredsum (g : CellId) (f : VsFmt) (s : State) : Out := .next (redShape 0x08 true redLat (fun c => c.redSum) g f s)

/-- R153: the largest active element. -/
def execVredmax (g : CellId) (f : VsFmt) (s : State) : Out :=
  .next (redShape 0x09 false (fun _ => 6) (fun c => c.redExt true) g f s)

/-- R153: the smallest active element. -/
def execVredmin (g : CellId) (f : VsFmt) (s : State) : Out :=
  .next (redShape 0x0A false (fun _ => 6) (fun c => c.redExt false) g f s)

/-- R134: scalar := element sb of va. -/
def execVmvs (g : CellId) (f : VsFmt) (s : State) : Out :=
  .next (vsShape 0x0C (scalarUses true [f.b] f.d) g f (fun c =>
    let t := c.vec.type
    let k := (c.pil.readS f.b).toNat
    if f.mp != 0 || c.vec.max ≤ k then none
    else some (c.scalarOut t.isFloat f.d (scalarOf t (elemAt (c.vec.reg f.a) t.width k)))) s)

/-- Uses of a function that reads sb and the scalar of VT's file. -/
def scalarSrc (src : List (BitVec 5)) (r : BitVec 5) (v : Vec) : Uses :=
  let u := vecUses v true r
  { u with s := u.s ++ src }

/-- R134: element sb of vd := scalar. -/
def execVmvv (g : CellId) (f : VsFmt) (s : State) : Out :=
  .next (vsShape 0x0D (scalarSrc [f.b] f.a) g f (fun c =>
    let k := (c.pil.readS f.b).toNat
    if f.mp != 0 || c.vec.max ≤ k then none
    else some (c.plainOut f.d c.vec.type.width 2 [(k, c.vecScalar f.a)])) s)

/-- R134: scalar to the active elements. -/
def execVbcast (g : CellId) (f : VsFmt) (s : State) : Out :=
  .next (vsShape 0x0E (scalarSrc [] f.a) g f (fun c =>
    if f.b != 0 then none
    else some (c.plainOut f.d c.vec.type.width 2 ((c.vec.active f.mp).map fun i => (i, c.vecScalar f.a)))) s)

/-- R134: the element index; integer VT only. -/
def execViota (g : CellId) (f : VsFmt) (s : State) : Out :=
  .next (vsShape 0x0F (fun _ => Uses.none') g f (fun c =>
    if f.a != 0 || f.b != 0 || c.vec.type.isFloat then none
    else some (c.plainOut f.d c.vec.type.width 2 ((c.vec.active f.mp).map fun i => (i, i)))) s)

/-- R134: va at the indices of vb; 0 at or above VLMAX. -/
def execVperm (g : CellId) (f : VsFmt) (s : State) : Out :=
  .next (vsShape 0x10 (fun _ => Uses.none') g f (fun c =>
    let w := c.vec.type.width
    let a := c.vec.reg f.a
    let b := c.vec.reg f.b
    some (c.plainOut f.d w 4 ((c.vec.active f.mp).map fun i =>
      let k := elemAt b w i % 2 ^ 16
      (i, if k < c.vec.max then elemAt a w k else 0)))) s)

/-- R134: va[i + sb], 0 at or above VLMAX. sb is read unsigned, here and in the other functions that take one (log 56). -/
def execVslidedn (g : CellId) (f : VsFmt) (s : State) : Out :=
  .next (vsShape 0x11 (fun _ => { Uses.none' with s := [f.b] }) g f (fun c =>
    let w := c.vec.type.width
    let a := c.vec.reg f.a
    let d := (c.pil.readS f.b).toNat
    some (c.plainOut f.d w 4 ((c.vec.active f.mp).map fun i =>
      (i, if i + d < c.vec.max then elemAt a w (i + d) else 0)))) s)

/-- R134: va[i − sb] for i ≥ sb; elements below sb keep their values. -/
def execVslideup (g : CellId) (f : VsFmt) (s : State) : Out :=
  .next (vsShape 0x12 (fun _ => { Uses.none' with s := [f.b] }) g f (fun c =>
    let w := c.vec.type.width
    let a := c.vec.reg f.a
    let d := (c.pil.readS f.b).toNat
    some (c.plainOut f.d w 4 (((c.vec.active f.mp).filter fun i => d ≤ i).map fun i => (i, elemAt a w (i - d))))) s)

/-- R134: md := ma and mb. -/
def execMand (g : CellId) (f : VsFmt) (s : State) : Out := .next (mShape 0x30 (fun a b => a && b) g f s)

/-- R134: md := ma or mb. -/
def execMor (g : CellId) (f : VsFmt) (s : State) : Out := .next (mShape 0x31 (fun a b => a || b) g f s)

/-- R134: md := ma xor mb. -/
def execMxor (g : CellId) (f : VsFmt) (s : State) : Out := .next (mShape 0x32 (fun a b => xor a b) g f s)

/-- R134: md := ma and not mb. -/
def execMandn (g : CellId) (f : VsFmt) (s : State) : Out := .next (mShape 0x33 (fun a b => a && !b) g f s)

/-- R134: the set bits of ma below VL. -/
def Vec.setBits (v : Vec) (a : BitVec 5) : List Nat :=
  let m := v.mreg (a.setWidth 4)
  (List.range v.vl).filter fun i => bit m i

/-- Fields of MCNT and MFIRST that must be 0 (R134, R135). -/
def mcntIllegal (f : VsFmt) : Bool := f.mp != 0 || f.b != 0 || 16 ≤ f.a.toNat

/-- R134: the number of set bits below VL. -/
def execMcnt (g : CellId) (f : VsFmt) (s : State) : Out :=
  .next (vsShape 0x34 (scalarUses false [] f.d) g f (fun c =>
    if mcntIllegal f then none else some (c.scalarOut false f.d (c.vec.setBits f.a).length)) s)

/-- R134: the lowest set bit below VL, else all ones. -/
def execMfirst (g : CellId) (f : VsFmt) (s : State) : Out :=
  .next (vsShape 0x35 (scalarUses false [] f.d) g f (fun c =>
    if mcntIllegal f then none else some (c.scalarOut false f.d ((c.vec.setBits f.a).headD (2 ^ 64 - 1)))) s)

end Sys2Proof.Machine
end

