-- ==== Sys2Proof/Machine/Dispatch.lean ====
section
/-! DEFINITION. One arm per command: its meaning. -/

namespace Sys2Proof.Machine

/-- The effect of a command on everything but the queue. -/
def exec (i : Instr) (s : State) : Host.Outcome State Fault Refusal :=
  match i with
  | .add g f => Sys2Proof.Machine.execAdd g f s
  | .sub g f => Sys2Proof.Machine.execSub g f s
  | .and g f => Sys2Proof.Machine.execAnd g f s
  | .or g f => Sys2Proof.Machine.execOr g f s
  | .xor g f => Sys2Proof.Machine.execXor g f s
  | .andn g f => Sys2Proof.Machine.execAndn g f s
  | .sll g f => Sys2Proof.Machine.execSll g f s
  | .srl g f => Sys2Proof.Machine.execSrl g f s
  | .sra g f => Sys2Proof.Machine.execSra g f s
  | .slt g f => Sys2Proof.Machine.execSlt g f s
  | .sltu g f => Sys2Proof.Machine.execSltu g f s
  | .min g f => Sys2Proof.Machine.execMin g f s
  | .max g f => Sys2Proof.Machine.execMax g f s
  | .minu g f => Sys2Proof.Machine.execMinu g f s
  | .maxu g f => Sys2Proof.Machine.execMaxu g f s
  | .mul g f => Sys2Proof.Machine.execMul g f s
  | .mulh g f => Sys2Proof.Machine.execMulh g f s
  | .mulhu g f => Sys2Proof.Machine.execMulhu g f s
  | .mulhsu g f => Sys2Proof.Machine.execMulhsu g f s
  | .div g f => Sys2Proof.Machine.execDiv g f s
  | .divu g f => Sys2Proof.Machine.execDivu g f s
  | .rem g f => Sys2Proof.Machine.execRem g f s
  | .remu g f => Sys2Proof.Machine.execRemu g f s
  | .ror g f => Sys2Proof.Machine.execRor g f s
  | .oprw g op f => Sys2Proof.Machine.execOprw g op f s
  | .addi g f => Sys2Proof.Machine.execAddi g f s
  | .addiw g f => Sys2Proof.Machine.execAddiw g f s
  | .andi g f => Sys2Proof.Machine.execAndi g f s
  | .ori g f => Sys2Proof.Machine.execOri g f s
  | .xori g f => Sys2Proof.Machine.execXori g f s
  | .slti g f => Sys2Proof.Machine.execSlti g f s
  | .sltiu g f => Sys2Proof.Machine.execSltiu g f s
  | .slli g f => Sys2Proof.Machine.execSlli g f s
  | .srli g f => Sys2Proof.Machine.execSrli g f s
  | .srai g f => Sys2Proof.Machine.execSrai g f s
  | .rori g f => Sys2Proof.Machine.execRori g f s
  | .slliw g f => Sys2Proof.Machine.execSlliw g f s
  | .srliw g f => Sys2Proof.Machine.execSrliw g f s
  | .sraiw g f => Sys2Proof.Machine.execSraiw g f s
  | .cset g f => Sys2Proof.Machine.execCset g f s
  | .cins g f => Sys2Proof.Machine.execCins g f s
  | .crep g f => Sys2Proof.Machine.execCrep g f s
  | .bfx g f => Sys2Proof.Machine.execBfx g f s
  | .bfxs g f => Sys2Proof.Machine.execBfxs g f s
  | .bfi g f => Sys2Proof.Machine.execBfi g f s
  | .bfc g f => Sys2Proof.Machine.execBfc g f s
  | .clz g f => Sys2Proof.Machine.execClz g f s
  | .ctz g f => Sys2Proof.Machine.execCtz g f s
  | .popc g f => Sys2Proof.Machine.execPopc g f s
  | .clzw g f => Sys2Proof.Machine.execClzw g f s
  | .ctzw g f => Sys2Proof.Machine.execCtzw g f s
  | .popcw g f => Sys2Proof.Machine.execPopcw g f s
  | .bperm g f => Sys2Proof.Machine.execBperm g f s
  | .bswap16 g f => Sys2Proof.Machine.execBswap16 g f s
  | .bswap32 g f => Sys2Proof.Machine.execBswap32 g f s
  | .bswap64 g f => Sys2Proof.Machine.execBswap64 g f s
  | .bfxv g f => Sys2Proof.Machine.execBfxv g f s
  | .bfxsv g f => Sys2Proof.Machine.execBfxsv g f s
  | .bfiv g f => Sys2Proof.Machine.execBfiv g f s
  | .rcopy g f => Sys2Proof.Machine.execRcopy g f s
  | .rfill g f => Sys2Proof.Machine.execRfill g f s
  | .rscan g f => Sys2Proof.Machine.execRscan g f s
  | .rscann g f => Sys2Proof.Machine.execRscann g f s
  | .rcmp g f => Sys2Proof.Machine.execRcmp g f s
  | .rspan g f => Sys2Proof.Machine.execRspan g f s
  | .rbreak g f => Sys2Proof.Machine.execRbreak g f s
  | .rcsum g f => Sys2Proof.Machine.execRcsum g f s
  | .repIteration g => Sys2Proof.Machine.execRepIteration g s
  | .lb g f => Sys2Proof.Machine.execLb g f s
  | .lh g f => Sys2Proof.Machine.execLh g f s
  | .lw g f => Sys2Proof.Machine.execLw g f s
  | .ld g f => Sys2Proof.Machine.execLd g f s
  | .lbu g f => Sys2Proof.Machine.execLbu g f s
  | .lhu g f => Sys2Proof.Machine.execLhu g f s
  | .lwu g f => Sys2Proof.Machine.execLwu g f s
  | .sb g f => Sys2Proof.Machine.execSb g f s
  | .sh g f => Sys2Proof.Machine.execSh g f s
  | .sw g f => Sys2Proof.Machine.execSw g f s
  | .sd g f => Sys2Proof.Machine.execSd g f s
  | .fld g f => Sys2Proof.Machine.execFld g f s
  | .flw g f => Sys2Proof.Machine.execFlw g f s
  | .fsd g f => Sys2Proof.Machine.execFsd g f s
  | .fsw g f => Sys2Proof.Machine.execFsw g f s
  | .wld g f => Sys2Proof.Machine.execWld g f s
  | .wst g f => Sys2Proof.Machine.execWst g f s
  | .remoteResponse g req => Sys2Proof.Machine.execRemoteResponse g req s
  | .storeAck g req => Sys2Proof.Machine.execStoreAck g req s
  | .remoteRequest g req => Sys2Proof.Machine.execRemoteRequest g req s
  | .lda g f => Sys2Proof.Machine.execLda g f s
  | .strel g f => Sys2Proof.Machine.execStrel g f s
  | .fence g f => Sys2Proof.Machine.execFence g f s
  | .acqr g f => Sys2Proof.Machine.execAcqr g f s
  | .fcvt g f => Sys2Proof.Machine.execFcvt g f s
  | .beq g f => Sys2Proof.Machine.execBeq g f s
  | .bne g f => Sys2Proof.Machine.execBne g f s
  | .blt g f => Sys2Proof.Machine.execBlt g f s
  | .bge g f => Sys2Proof.Machine.execBge g f s
  | .bltu g f => Sys2Proof.Machine.execBltu g f s
  | .bgeu g f => Sys2Proof.Machine.execBgeu g f s
  | .jal g f => Sys2Proof.Machine.execJal g f s
  | .jalr g f => Sys2Proof.Machine.execJalr g f s
  | .fadd g f => Sys2Proof.Machine.execFadd g f s
  | .fsub g f => Sys2Proof.Machine.execFsub g f s
  | .fmul g f => Sys2Proof.Machine.execFmul g f s
  | .fdiv g f => Sys2Proof.Machine.execFdiv g f s
  | .fsqrt g f => Sys2Proof.Machine.execFsqrt g f s
  | .fmin g f => Sys2Proof.Machine.execFmin g f s
  | .fmax g f => Sys2Proof.Machine.execFmax g f s
  | .fabs g f => Sys2Proof.Machine.execFabs g f s
  | .fneg g f => Sys2Proof.Machine.execFneg g f s
  | .feq g f => Sys2Proof.Machine.execFeq g f s
  | .flt g f => Sys2Proof.Machine.execFlt g f s
  | .fle g f => Sys2Proof.Machine.execFle g f s
  | .fmvsf g f => Sys2Proof.Machine.execFmvsf g f s
  | .fmvfs g f => Sys2Proof.Machine.execFmvfs g f s
  | .fmadd g f => Sys2Proof.Machine.execFmadd g f s
  | .fmsub g f => Sys2Proof.Machine.execFmsub g f s
  | .fnmadd g f => Sys2Proof.Machine.execFnmadd g f s
  | .fnmsub g f => Sys2Proof.Machine.execFnmsub g f s
  | .wadd g f => Sys2Proof.Machine.execWadd g f s
  | .wsub g f => Sys2Proof.Machine.execWsub g f s
  | .wmul g f => Sys2Proof.Machine.execWmul g f s
  | .wmin g f => Sys2Proof.Machine.execWmin g f s
  | .wmax g f => Sys2Proof.Machine.execWmax g f s
  | .wfma g f => Sys2Proof.Machine.execWfma g f s
  | .wand g f => Sys2Proof.Machine.execWand g f s
  | .wor g f => Sys2Proof.Machine.execWor g f s
  | .wxor g f => Sys2Proof.Machine.execWxor g f s
  | .wcmpeq g f => Sys2Proof.Machine.execWcmpeq g f s
  | .wcmplt g f => Sys2Proof.Machine.execWcmplt g f s
  | .wcmple g f => Sys2Proof.Machine.execWcmple g f s
  | .wbcast g f => Sys2Proof.Machine.execWbcast g f s
  | .wext g f => Sys2Proof.Machine.execWext g f s
  | .wins g f => Sys2Proof.Machine.execWins g f s
  | .wpickb g f => Sys2Proof.Machine.execWpickb g f s
  | .gate g f => Sys2Proof.Machine.execGate g f s
  | .retx g f => Sys2Proof.Machine.execRetx g f s
  | .guard g f => Sys2Proof.Machine.execGuard g f s
  | .guardWindowClose g => Sys2Proof.Machine.execGuardWindowClose g s
  | .ifence g f => Sys2Proof.Machine.execIfence g f s
  | .kend g f => Sys2Proof.Machine.execKend g f s
  | .mwait g f => Sys2Proof.Machine.execMwait g f s
  | .fgets g f => Sys2Proof.Machine.execFgets g f s
  | .fsetm g f => Sys2Proof.Machine.execFsetm g f s
  | .fclrf g f => Sys2Proof.Machine.execFclrf g f s
  | .apass g f => Sys2Proof.Machine.execApass g f s
  | .await g f => Sys2Proof.Machine.execAwait g f s
  | .mviss g f => Sys2Proof.Machine.execMviss g f s
  | .mvwait g f => Sys2Proof.Machine.execMvwait g f s
  | .mvdone g f => Sys2Proof.Machine.execMvdone g f s
  | .custom g f => Sys2Proof.Machine.execCustom g f s
  | .interruptEntry g => Sys2Proof.Machine.execInterruptEntry g s
  | .vadd g f => Sys2Proof.Machine.execVadd g f s
  | .vsub g f => Sys2Proof.Machine.execVsub g f s
  | .vmul g f => Sys2Proof.Machine.execVmul g f s
  | .vmin g f => Sys2Proof.Machine.execVmin g f s
  | .vmax g f => Sys2Proof.Machine.execVmax g f s
  | .vabs g f => Sys2Proof.Machine.execVabs g f s
  | .vneg g f => Sys2Proof.Machine.execVneg g f s
  | .vand g f => Sys2Proof.Machine.execVand g f s
  | .vor g f => Sys2Proof.Machine.execVor g f s
  | .vxor g f => Sys2Proof.Machine.execVxor g f s
  | .vshl g f => Sys2Proof.Machine.execVshl g f s
  | .vshr g f => Sys2Proof.Machine.execVshr g f s
  | .vmerge g f => Sys2Proof.Machine.execVmerge g f s
  | .vcmpeq g f => Sys2Proof.Machine.execVcmpeq g f s
  | .vcmpne g f => Sys2Proof.Machine.execVcmpne g f s
  | .vcmplt g f => Sys2Proof.Machine.execVcmplt g f s
  | .vcmple g f => Sys2Proof.Machine.execVcmple g f s
  | .vcmpun g f => Sys2Proof.Machine.execVcmpun g f s
  | .vfrcp g f => Sys2Proof.Machine.execVfrcp g f s
  | .vfrsq g f => Sys2Proof.Machine.execVfrsq g f s
  | .vfma g f => Sys2Proof.Machine.execVfma g f s
  | .vfms g f => Sys2Proof.Machine.execVfms g f s
  | .vnfma g f => Sys2Proof.Machine.execVnfma g f s
  | .vld g f => Sys2Proof.Machine.execVld g f s
  | .vst g f => Sys2Proof.Machine.execVst g f s
  | .vcvt g f => Sys2Proof.Machine.execVcvt g f s
  | .vbq g f => Sys2Proof.Machine.execVbq g f s
  | .vsetl g f => Sys2Proof.Machine.execVsetl g f s
  | .vgetl g f => Sys2Proof.Machine.execVgetl g f s
  | .vredsum g f => Sys2Proof.Machine.execVredsum g f s
  | .vredmax g f => Sys2Proof.Machine.execVredmax g f s
  | .vredmin g f => Sys2Proof.Machine.execVredmin g f s
  | .vmvs g f => Sys2Proof.Machine.execVmvs g f s
  | .vmvv g f => Sys2Proof.Machine.execVmvv g f s
  | .vbcast g f => Sys2Proof.Machine.execVbcast g f s
  | .viota g f => Sys2Proof.Machine.execViota g f s
  | .vperm g f => Sys2Proof.Machine.execVperm g f s
  | .vslidedn g f => Sys2Proof.Machine.execVslidedn g f s
  | .vslideup g f => Sys2Proof.Machine.execVslideup g f s
  | .vfeed g f => Sys2Proof.Machine.execVfeed g f s
  | .vorb g f => Sys2Proof.Machine.execVorb g f s
  | .vsync g f => Sys2Proof.Machine.execVsync g f s
  | .mand g f => Sys2Proof.Machine.execMand g f s
  | .mor g f => Sys2Proof.Machine.execMor g f s
  | .mxor g f => Sys2Proof.Machine.execMxor g f s
  | .mandn g f => Sys2Proof.Machine.execMandn g f s
  | .mcnt g f => Sys2Proof.Machine.execMcnt g f s
  | .mfirst g f => Sys2Proof.Machine.execMfirst g f s
  | .vecWaitTimeout g => Sys2Proof.Machine.execVecWaitTimeout g s
  | .vectorOrbitPacket g => Sys2Proof.Machine.execVectorOrbitPacket g s
  | .passStart g => Sys2Proof.Machine.execPassStart g s
  | .passStep g upset => Sys2Proof.Machine.execPassStep g upset s
  | .passCommit g => Sys2Proof.Machine.execPassCommit g s
  | .orbitPacket g => Sys2Proof.Machine.execOrbitPacket g s
  | .passStallLimit g => Sys2Proof.Machine.execPassStallLimit g s
  | .arrCtlAbort g => Sys2Proof.Machine.execArrCtlAbort g s
  | .arrCtlHold g hold => Sys2Proof.Machine.execArrCtlHold g hold s
  | .copy g stopAfter => Sys2Proof.Machine.execCopy g stopAfter s
  | .fill g stopAfter => Sys2Proof.Machine.execFill g stopAfter s
  | .copy2d g stopAfter => Sys2Proof.Machine.execCopy2d g stopAfter s
  | .fill2d g stopAfter => Sys2Proof.Machine.execFill2d g stopAfter s
  | .moverComplete g ticket => Sys2Proof.Machine.execMoverComplete g ticket s
  | .cellMboxIn g by' w => Sys2Proof.Machine.execCellMboxIn g by' w s
  | .cellMboxHead g by' rd => Sys2Proof.Machine.execCellMboxHead g by' rd s
  | .vecCfgWrite g v => Sys2Proof.Machine.execVecCfgWrite g v s
  | .srStateWrite g which v => Sys2Proof.Machine.execSrStateWrite g which v s
  | .registerWrite by' a v half => Sys2Proof.Machine.execRegisterWrite by' a v half s
  | .flitReceive r inp flit ecc => Sys2Proof.Machine.execFlitReceive r inp flit ecc s
  | .creditReturn r out vc => Sys2Proof.Machine.execCreditReturn r out vc s
  | .lossAck g req => Sys2Proof.Machine.execLossAck g req s
  | .requestTimeout g req => Sys2Proof.Machine.execRequestTimeout g req s
  | .ringWrite p q off bytes => Sys2Proof.Machine.execRingWrite p q off bytes s
  | .commandPacket q => Sys2Proof.Machine.execCommandPacket q s
  | .slotTake q => Sys2Proof.Machine.execSlotTake q s
  | .packetAdmit => Sys2Proof.Machine.execPacketAdmit s
  | .run => Sys2Proof.Machine.execRun s
  | .nop => Sys2Proof.Machine.execNop s
  | .qconfig => Sys2Proof.Machine.execQconfig s
  | .takeover => Sys2Proof.Machine.execTakeover s
  | .giveback => Sys2Proof.Machine.execGiveback s
  | .time => Sys2Proof.Machine.execTime s
  | .attest => Sys2Proof.Machine.execAttest s
  | .attestReportDone => Sys2Proof.Machine.execAttestReportDone s
  | .eclipseSchedule => Sys2Proof.Machine.execEclipseSchedule s
  | .eclipseCancel => Sys2Proof.Machine.execEclipseCancel s
  | .eclipseRelease => Sys2Proof.Machine.execEclipseRelease s
  | .heldRunRelease c => Sys2Proof.Machine.execHeldRunRelease c s
  | .scheduledStart c => Sys2Proof.Machine.execScheduledStart c s
  | .deadlineExpiry c => Sys2Proof.Machine.execDeadlineExpiry c s
  | .payloadAck c => Sys2Proof.Machine.execPayloadAck c s
  | .ring g c => Sys2Proof.Machine.execRing g c s
  | .kernelLaunch g => Sys2Proof.Machine.execKernelLaunch g s
  | .kernelEndReport g => Sys2Proof.Machine.execKernelEndReport g s
  | .abortReport g => Sys2Proof.Machine.execAbortReport g s
  | .hubEndCommand g c => Sys2Proof.Machine.execHubEndCommand g c s
  | .commandComplete c => Sys2Proof.Machine.execCommandComplete c s
  | .linkUp p rate mps => Sys2Proof.Machine.execLinkUp p rate mps s
  | .linkDown p => Sys2Proof.Machine.execLinkDown p s
  | .flr p => Sys2Proof.Machine.execFlr p s
  | .perstAssert p level => Sys2Proof.Machine.execPerstAssert p level s
  | .versionGo p v => Sys2Proof.Machine.execVersionGo p v s
  | .ppsEdge => Sys2Proof.Machine.execPpsEdge s
  | .ppsloss => Sys2Proof.Machine.execPpsloss s
  | .ptmDialogue x => Sys2Proof.Machine.execPtmDialogue x s
  | .ptmerr => Sys2Proof.Machine.execPtmerr s
  | .timeChangeApply => Sys2Proof.Machine.execTimeChangeApply s
  | .wrap => Sys2Proof.Machine.execWrap s
  | .ephemerisRepeat p => Sys2Proof.Machine.execEphemerisRepeat p s
  | .probe p => Sys2Proof.Machine.execProbe p s
  | .probeReply p peerSet => Sys2Proof.Machine.execProbeReply p peerSet s
  | .hello p => Sys2Proof.Machine.execHello p s
  | .helloAck p => Sys2Proof.Machine.execHelloAck p s
  | .frame p fr => Sys2Proof.Machine.execFrame p fr s
  | .retrain p why => Sys2Proof.Machine.execRetrain p why s
  | .retrainComplete p res => Sys2Proof.Machine.execRetrainComplete p res s
  | .opticalLoadCurve temps mv => Sys2Proof.Machine.execOpticalLoadCurve temps mv s
  | .opticalOrbitPacket p => Sys2Proof.Machine.execOpticalOrbitPacket p s
  | .pgGet p => Sys2Proof.Machine.execPgGet p s
  | .pgData p => Sys2Proof.Machine.execPgData p s
  | .pgPut p => Sys2Proof.Machine.execPgPut p s
  | .pgAck p => Sys2Proof.Machine.execPgAck p s
  | .get => Sys2Proof.Machine.execGet s
  | .put => Sys2Proof.Machine.execPut s
  | .pageTimeout reqid => Sys2Proof.Machine.execPageTimeout reqid s
  | .cacheFill t => Sys2Proof.Machine.execCacheFill t s
  | .recentre c => Sys2Proof.Machine.execRecentre c s
  | .hbmLoadCurve temps mv => Sys2Proof.Machine.execHbmLoadCurve temps mv s
  | .scrub u ups => Sys2Proof.Machine.execScrub u ups s
  | .healthListWrite => Sys2Proof.Machine.execHealthListWrite s
  | .errorRecord src => Sys2Proof.Machine.execErrorRecord src s
  | .watchdog g => Sys2Proof.Machine.execWatchdog g s
  | .cellReset g why => Sys2Proof.Machine.execCellReset g why s
  | .cellResetDone g pass => Sys2Proof.Machine.execCellResetDone g pass s
  | .selftest g => Sys2Proof.Machine.execSelftest g s
  | .selftestDone g pass => Sys2Proof.Machine.execSelftestDone g pass s
  | .safeStop memory => Sys2Proof.Machine.execSafeStop memory s
  | .powerOn mv => Sys2Proof.Machine.execPowerOn mv s
  | .rom scanen => Sys2Proof.Machine.execRom scanen s
  | .verify => Sys2Proof.Machine.execVerify s
  | .hubfw => Sys2Proof.Machine.execHubfw s
  | .config => Sys2Proof.Machine.execConfig s
  | .train res => Sys2Proof.Machine.execTrain res s
  | .hbmzero => Sys2Proof.Machine.execHbmzero s
  | .load => Sys2Proof.Machine.execLoad s
  | .cellinit => Sys2Proof.Machine.execCellinit s
  | .ready => Sys2Proof.Machine.execReady s
  | .program => Sys2Proof.Machine.execProgram s
  | .activate => Sys2Proof.Machine.execActivate s
  | .clearhealth => Sys2Proof.Machine.execClearhealth s
  | .burnkey => Sys2Proof.Machine.execBurnkey s
  | .restart => Sys2Proof.Machine.execRestart s
  | .flashOpDone => Sys2Proof.Machine.execFlashOpDone s
  | .governorWindow tjHalf mv pa pf => Sys2Proof.Machine.execGovernorWindow tjHalf mv pa pf s
  | .thermalShutdown tjHalf us => Sys2Proof.Machine.execThermalShutdown tjHalf us s
  | .powerOff => Sys2Proof.Machine.execPowerOff s
  | .auxSense level => Sys2Proof.Machine.execAuxSense level s
  | .bypass => Sys2Proof.Machine.execBypass s
  | .idcode => Sys2Proof.Machine.execIdcode s
  | .samplePreload pins => Sys2Proof.Machine.execSamplePreload pins s
  | .extest pins => Sys2Proof.Machine.execExtest pins s
  | .smbusModStat => Sys2Proof.Machine.execSmbusModStat s
  | .smbusBootStat => Sys2Proof.Machine.execSmbusBootStat s
  | .smbusInputVoltage v => Sys2Proof.Machine.execSmbusInputVoltage v s
  | .smbusInputCurrent v => Sys2Proof.Machine.execSmbusInputCurrent v s
  | .smbusInputPower v => Sys2Proof.Machine.execSmbusInputPower v s
  | .smbusRailVoltages v => Sys2Proof.Machine.execSmbusRailVoltages v s
  | .smbusJunction v => Sys2Proof.Machine.execSmbusJunction v s
  | .smbusCoolantInlet v => Sys2Proof.Machine.execSmbusCoolantInlet v s
  | .smbusGovStat => Sys2Proof.Machine.execSmbusGovStat s
  | .smbusSafeStat => Sys2Proof.Machine.execSmbusSafeStat s
  | .smbusLogIndex idx pecOk => Sys2Proof.Machine.execSmbusLogIndex idx pecOk s
  | .smbusLogRead => Sys2Proof.Machine.execSmbusLogRead s
  | .smbusTimeOfDay msg pecOk => Sys2Proof.Machine.execSmbusTimeOfDay msg pecOk s
  | .smbusRestart v pecOk => Sys2Proof.Machine.execSmbusRestart v pecOk s
  | .sample g by' => Sys2Proof.Machine.execSample g by' s
  | .trcSelWrite g by' k v => Sys2Proof.Machine.execTrcSelWrite g by' k v s
  | .mark g by' v => Sys2Proof.Machine.execMark g by' v s
  | .logbookWrite => Sys2Proof.Machine.execLogbookWrite s
  | .survey by' => Sys2Proof.Machine.execSurvey by' s
  | .surveyDone => Sys2Proof.Machine.execSurveyDone s
  | .eclipseTick => Sys2Proof.Machine.execEclipseTick s
  | .stopNow by' => Sys2Proof.Machine.execStopNow by' s
  | .trcEclRelease by' => Sys2Proof.Machine.execTrcEclRelease by' s
  | .trcEclCancel by' => Sys2Proof.Machine.execTrcEclCancel by' s
  | .reltimeRelease => Sys2Proof.Machine.execReltimeRelease s
  | .obswinRead by' a => Sys2Proof.Machine.execObswinRead by' a s
  | .obswinReady => Sys2Proof.Machine.execObswinReady s
  | .pilotWriteback g => Sys2Proof.Machine.execPilotWriteback g s
  | .vectorWriteback g upset => Sys2Proof.Machine.execVectorWriteback g upset s
  | .acqrComplete g => Sys2Proof.Machine.execAcqrComplete g s
  | .ppsOutEdge => Sys2Proof.Machine.execPpsOutEdge s
  | .registerRead p a half => Sys2Proof.Machine.execRegisterRead p a half s
  | .d3hot p d3 => Sys2Proof.Machine.execD3hot p d3 s

end Sys2Proof.Machine
end

