-- ==== Sys2Proof/WellFormed.lean ====
section
/-! DEFINITION. Operands that an event of the part can have. The operand types carry the widths; what is left are relations
between operands. A command whose operands break one is no event of the part; its meaning is still total. -/

namespace Sys2Proof

/-- Set bits of a word. -/
def popCount {n : Nat} (v : BitVec n) : Nat := ((List.range n).filter fun i => v.getLsbD i).length

/-- R382, R383: a frame has four codewords of 544 symbols, carries one flit for each slot that SLOTV marks, and its reserved bit is 0. -/
def Frame.wellFormed (f : Frame) : Bool :=
  f.flits.length == popCount (f.ctl.extractLsb' 40 40) && f.wrong.length == 4 && f.wrong.all (· ≤ 544) && !f.ctl.getLsbD 25
    && f.spoilt.all (fun x => x.1 < f.flits.length) && decide ((f.spoilt.map Prod.fst).Nodup)

/-- R84, R105: a step delivers at most 4 × 64 values, each wrong at most once. -/
def StepUpset.wellFormed (u : StepUpset) : Bool :=
  u.wrong.all (fun x => x.1 < 4 && x.2.1 < 64) && decide ((u.wrong.map fun x => (x.1, x.2.1)).Nodup)

/-- R26, R441: whether a unit lies in its store, where one of SRAM has `bytes` bytes. -/
def ScrubUnit.within (u : ScrubUnit) (bytes : Nat) : Bool :=
  match u with
  | .localStore _ n => n * bytes < 0x40000
  | .window _ n => n * bytes < 0x40000
  | .scratch _ n => n * bytes < 0xC000000
  | .hbm n => n < 2 ^ 34

/-- R253, R259, R264: what can strike a store. -/
def Upset.wellFormed (u : Upset) : Bool :=
  match u with
  | .store x w => x.within 8 && w ≤ 64
  | .metadata n _ => n < 2 ^ 34
  | .onDie n => n < 2 ^ 34
  | .parity n _ => n < 2 ^ 34
  | .line _ n _ w => n < 2 ^ 32 && w ≤ 64

/-- R31: a half access gives 32 bits. -/
def halfFits (h : Half) (v : Word64) : Bool := h == .whole || v.toNat < 2 ^ 32

/-- Whether a command's operands can be those of an event. -/
def Instr.wellFormed (i : Instr) : Bool :=
  match i with
  | .passStep _ u => u.wellFormed
  | .vectorWriteback _ (some u) => u.element < 1024
  | .registerWrite _ _ v h => halfFits h v
  | .ringWrite _ _ _ bs => !bs.isEmpty
  | .ptmDialogue x => decide (x.turnaround.toNat ≤ x.roundTrip.toNat)
  | .linkUp _ r mps => r.speed != 0 && r.width != 0 && mps != 3
  | .frame _ fr => fr.wellFormed
  | .train r => r.spares.all fun n => n.toNat ≤ 4
  | .scrub u ups => u.within 64 && ups.all Upset.wellFormed
  | _ => true

end Sys2Proof
end

