-- ==== Sys2Proof/Safety.lean ====
section
/-! DEFINITION. The terms in which claims speak: safe states (every byte store in canonical form), a pilot that can issue, and the
effect of an instruction that writes one register. -/

namespace Sys2Proof

/-- A cell's three stores are in canonical form. -/
def Machine.Cell.memOk (c : Machine.Cell) : Bool := c.ls.wf && c.win.wf && c.slice.wf

/-- Every byte store of the module is in canonical form. -/
def Machine.State.memOk (s : Machine.State) : Bool :=
  s.hbm.mem.wf && s.flash.wf && s.cells.all fun e => e.2.memOk

/-- Every waiting command is one that an event of the part can be. -/
def Machine.State.queueOk (s : Machine.State) : Bool := s.pending.all Instr.wellFormed

/-- The pilot of cell `g` issues instructions, and nothing comes before the one at its PC: no interrupt is due, the PC lies in the
window, no entry or return is under way, and the fetch meets no error (R161, R208, R224, R253, R440). -/
def Machine.State.fetches (s : Machine.State) (g : CellId) : Bool :=
  let c := s.cell g
  s.running g && (c.exc.takeable s.clk.cc).isNone && Machine.pcOk c.pil.pc &&
    c.pil.seq.isNone && !c.win.anyBad Machine.sramUnit (Machine.fetchOff c.pil.pc) 16 &&
    !c.win.soft.any fun e => Machine.unitMet Machine.sramUnit (Machine.fetchOff c.pil.pc) 16 e.1

/-- Nothing holds an instruction of these uses in IS in this cc: its registers, its unit and a write port are free, no remote load
holds a register of it, and no LDA, ACQR or FENCE holds its access (R206, R298 to R300). -/
def Machine.State.canIssue (s : Machine.State) (g : CellId) (u : Machine.Uses) : Bool :=
  let p := (s.cell g).pil
  s.fetches g && !p.remoteHolds u && !(u.mem && p.hold) && decide (p.ready u s.clk.cc ≤ s.clk.cc)

/-- Change the pilot of cell `g`. -/
def Machine.State.updPil (s : Machine.State) (g : CellId) (f : Machine.Pilot → Machine.Pilot) : Machine.State :=
  s.updCell g fun c => { c with pil := f c.pil }

/-- The instruction at the PC of cell `g` has issued in this cc, and the next one follows it (R206). -/
def Machine.State.retired (s : Machine.State) (g : CellId) : Machine.State := s.updCell g fun c => c.retire s.clk.cc 1 none 0

/-- A control transfer has issued in this cc: the next instruction is at `target`, 7 cc later (R172, R203). -/
def Machine.State.jumped (s : Machine.State) (g : CellId) (target : Machine.State → Word64) : Machine.State :=
  s.updCell g fun c => c.retire s.clk.cc 7 (some (target s)) 5

/-- s register `rd` of cell `g` has taken `v` (R157). -/
def Machine.State.putS (s : Machine.State) (g : CellId) (rd : BitVec 5) (v : Word64) : Machine.State :=
  s.updPil g fun p => p.writeS rd v

/-- A result for s register `rd` (`wide`: for f or w register `rd`) is under way and lands at the end of cc `due` (R207); a result
for s0 goes nowhere (R157). -/
def Machine.State.willPut (s : Machine.State) (g : CellId) (wide : Bool) (rd : BitVec 5) (v : BitVec 128) (due : Nat) :
    Machine.State :=
  s.updPil g fun p =>
    if !wide && rd = 0 then p
    else { p with wbs := p.wbs ++ [{ wide := wide, reg := rd, val := v, due := due, bad := false, load := false }] }

/-- A scalar result of a vector instruction is under way, as `willPut` has it for a pilot instruction's (R148, R150). -/
def Machine.State.vecWillPut (s : Machine.State) (g : CellId) (wide : Bool) (rd : BitVec 5) (v : BitVec 128) (due : Nat) :
    Machine.State :=
  s.updPil g fun p =>
    if !wide && rd = 0 then p
    else { p with wbs := p.wbs ++ [{ wide := wide, reg := rd, val := v, due := due, bad := false, load := false, vec := true }] }

/-- A pilot instruction has raised flags in this cc, which stand in CELL_FPSTAT.PIL at its end (R68, R69); none leaves no trace. -/
def Machine.State.flagPil (s : Machine.State) (g : CellId) (fl : Machine.FFlags) : Machine.State :=
  s.updCell g fun c => if fl = 0 then c else { c with fp := { c.fp with raised := c.fp.raised ++ [(s.clk.cc, fl)] } }

/-- The load of `n` bytes at offset `o` of an own store, whose address is `a`, issued in cc `now` with latency `lat` (R209): it reads in the
following cc and lands at the end of cc now + lat − 1. -/
def Machine.loadOf (wide : Bool) (rd : BitVec 5) (ext : Machine.Ext) (st : Machine.OwnStore) (o n a lat now : Nat) :
    Machine.PilotWb :=
  { wide := wide, reg := rd, val := 0, due := now + lat - 1, bad := false, load := true,
    reads := [{ cc := now + 1, src := .own st o n, addr := a }], ext := ext, since := now }

/-- A load from one of the cell's own stores has issued: its port is taken for a cc, and it is on its way (R209). -/
def Machine.State.loading (s : Machine.State) (g : CellId) (st : Machine.OwnStore) (w : Machine.PilotWb) : Machine.State :=
  s.updPil g fun p => { p.usePort st s.clk.cc 1 with wbs := p.wbs ++ [w] }

/-- The address of offset `o` of one of cell `g`'s own stores, as its pilot writes it (R26). -/
def Machine.ownAddr (g : CellId) (st : Machine.OwnStore) (o : Nat) : Nat :=
  match st with
  | .localStore => o
  | .window => 0x100000 + o
  | .slice => 0x1000000000 + g.toNat * 0x10000000 + o

/-- Bytes of an own store: 256 KiB of local store, of which user level may touch those below the refuge region (R231), 256 KiB of
window, 192 MiB of slice (R26, R27). -/
def Machine.ownSize (st : Machine.OwnStore) (supervisor : Bool) : Nat :=
  match st with
  | .localStore => if supervisor then 0x40000 else 0x3F000
  | .window => 0x40000
  | .slice => 0xC000000

/-- An access of `n` bytes at offset `o` of an own store that is not split (R209, R213). -/
def Machine.unsplit (st : Machine.OwnStore) (o n : Nat) : Prop :=
  match st with
  | .slice => o % 64 + n ≤ 64
  | _ => if n = 16 then o % 16 = 0 else o % 8 + n ≤ 8

/-- The bytes of an own store of a cell. -/
def Machine.Cell.ownMem (c : Machine.Cell) (st : Machine.OwnStore) : Machine.Mem :=
  match st with
  | .localStore => c.ls
  | .window => c.win
  | .slice => c.slice

/-- R147: vector instruction `x` has issued in this cc: it lands after `lat` cc, and the vector engine is busy until then; the
vector generator is left at `srv` (R59). -/
def Machine.State.vecStarts (s : Machine.State) (g : CellId) (x : Machine.VecFlight) (srv : Word32) (lat : Nat) : Machine.State :=
  s.updCell g fun c =>
    ({ c with fp := { c.fp with srv := srv }, vec := { c.vec with flight := c.vec.flight ++ [x] } } : Machine.Cell).engine 1
      (s.clk.cc + lat) 0

/-- R127, R147: landing `x` gives element `i`, of `w` bits, of v register `r` the value `e i` where there is one; every other
element, every other v register and every m register keeps its value. -/
def Machine.VecFlight.setsV (x : Machine.VecFlight) (r : BitVec 5) (w : Nat) (e : Nat → Option Nat) : Prop :=
  ∀ v : Machine.Vec,
    let t := x.writes.foldl Machine.Vec.put v
    (∀ i, (i + 1) * w ≤ 8192 →
      Machine.elemAt (t.reg r) w i = match e i with | some y => y % 2 ^ w | none => Machine.elemAt (v.reg r) w i) ∧
    (∀ q, q ≠ r → t.reg q = v.reg q) ∧ ∀ q, t.mreg q = v.mreg q

/-- R127, R147: landing `x` gives bit `i` of m register `r` the value `e i` where there is one; m0 takes none; all else stays. -/
def Machine.VecFlight.setsM (x : Machine.VecFlight) (r : BitVec 4) (e : Nat → Option Bool) : Prop :=
  ∀ v : Machine.Vec,
    let t := x.writes.foldl Machine.Vec.put v
    (r ≠ 0 → ∀ i < 1024, (t.mreg r).testBit i = match e i with | some b => b | none => (v.mreg r).testBit i) ∧
    (∀ q, q ≠ r ∨ q = 0 → t.mreg q = v.mreg q) ∧ ∀ q, t.reg q = v.reg q

/-- R57, R59: the rounding of element `i` when the elements `act` take part in ascending order: under SR each has its own draw,
the upper half of the generator after 16 steps for each element before it. -/
def Machine.laneRounding (fp : Machine.FpState) (sr : Bool) (act : List Nat) (i : Nat) : Machine.Rnd :=
  if sr && fp.vrm = 2 then
    .sr ((Machine.lfsrSteps fp.srv (16 * (act.filter fun j => decide (j < i)).length)).toNat / 2 ^ 16 % 2 ^ 16)
  else Machine.Rnd.plain fp.vrm

/-- R59: the generator after the draws of the elements `act`. -/
def Machine.laneDraws (fp : Machine.FpState) (sr : Bool) (act : List Nat) : Word32 :=
  if sr && fp.vrm = 2 then Machine.lfsrSteps fp.srv (16 * act.length) else fp.srv

/-- Nothing is on its way in a cell: no store, no register write, no result, no flag, no entry or return, no slice that leaves the feed
queue. -/
def Machine.Cell.quiet (c : Machine.Cell) : Prop :=
  c.stores = [] ∧ c.regs = [] ∧ c.pil.wbs = [] ∧ c.pil.micros = [] ∧ c.pil.seq = none ∧ c.vec.flight = [] ∧ c.fp.raised = [] ∧ c.arr.pop = none

/-- R314: the writes by which the hub posts `bs` into the memory of port `p`'s host at `addr`. -/
def Machine.State.posts (s : Machine.State) (p : PortId) (addr : Nat) (bs : List Byte) : List Machine.HostWrite :=
  Machine.splitWrite p (s.pport p).maxPayload bs.length addr bs

/-- Everything of the module but its cells, and every cell but `g`, is the same. -/
def Machine.State.sameBut (s t : Machine.State) (g : CellId) : Prop :=
  (∀ h, h ≠ g → t.cell h = s.cell h) ∧
    ({ t with cells := s.cells } : Machine.State) = s

end Sys2Proof
end

