-- ==== Sys2Proof/Certificates/Slice0/Obligations.lean ====
section
/-! DEFINITION. The statements about the model, for the provers. -/

open Sys2Proof Sys2Proof.Machine

/-! The queue of waiting commands. -/

/-- The block takes its commands first in, first out: a step runs the command at the front on the state with the queue's rest. -/
def Obligations.StepRunsFrontCommand : Prop :=
  ∀ (c : Instr) (q : List Instr) (s : State),
    step { s with pending := c :: q } = exec c { s with pending := q }

/-- With nothing waiting one arithmetic period passes and the queue stays empty: the model's choice (log 1). -/
def Obligations.StepOnEmptyQueueAdvancesClock : Prop :=
  ∀ s : State, s.pending = [] → ∃ t, step s = .next t ∧ t.pending = [] ∧ t = s.advance 1

/-- Every command answers a next state in every state, so that no meaning stops and none is missing, and none reads or changes the queue of those
that wait behind it. -/
def Obligations.EveryCommandAnswersNextAndLeavesQueue : Prop :=
  ∀ (c : Instr) (s : State), ∃ t, exec c s = .next t ∧ t.pending = s.pending

/-! Memory. -/

/-- A step keeps every byte store of the module in canonical form. -/
def Obligations.StepKeepsMemoryCanonical : Prop :=
  ∀ s t : State, s.memOk = true → step s = .next t → t.memOk = true

/-- The module after reset: its stores are in canonical form, and every byte reads 0, which is the model's choice where the manual zeroes memory
only at start (log 3); the registers to which the manual gives a reset value other than 0 hold it (R34, R102, R130, R248, R275, R352, R356, R358,
R453, R463, R495), and nothing waits. -/
def Obligations.ResetState : Prop :=
  let s := State.reset
  s.memOk = true ∧ (∀ a, s.hbm.mem.read a = 0) ∧ (∀ a, s.flash.read a = 0) ∧
    (∀ (g : CellId) (a : Nat), (s.cell g).ls.read a = 0 ∧ (s.cell g).win.read a = 0 ∧ (s.cell g).slice.read a = 0) ∧
    (∀ g : CellId, (s.cell g).id.group = 0x7F ∧ (s.cell g).arr.stallLimit = 0x8000 ∧ (s.cell g).vec.waitLimit = 0x10000 ∧
      (s.cell g).id.present = false ∧ (s.cell g).pil.mode = .idle ∧ ∀ r, (s.cell g).pil.readS r = 0) ∧
    s.clk.d = 64 ∧ s.time.inc = 0x98B5BF2C ∧ s.time.steplim = 0x100000 ∧ s.time.period = 10 ∧ s.hbm.ceth = 0x40 ∧ s.hbm.ueth = 1 ∧
    s.safe.wdogLimit = 0x1B7740 ∧ s.safe.period = 0x3E8 ∧ s.disp.downms = 0x64 ∧ s.obs.snapMib = 8 ∧ s.obs.en = false ∧
    s.disp.cmds = [] ∧ s.pending = []

/-! Pilot: integer, bit-field and parsing instructions (R165 to R167, R180 to R182). -/

/-- R165: an OPR instruction of one cycle writes its function of ra and rb to rd, and the pilot goes on to the next word. -/
def Obligations.OprResultsOfOneCycle : Prop :=
  ∀ (g : CellId) (f : RFmt) (s : State), f.hi = 0 → s.canIssue g (usesS [f.ra, f.rb] f.rd 1) = true →
    ∀ x ∈ ([(.add g f, fun a b => a + b), (.sub g f, fun a b => a - b), (.and g f, fun a b => a &&& b),
        (.or g f, fun a b => a ||| b), (.xor g f, fun a b => a ^^^ b), (.andn g f, fun a b => a &&& ~~~b),
        (.sll g f, fun a b => a <<< (b.toNat % 64)), (.srl g f, fun a b => a >>> (b.toNat % 64)),
        (.sra g f, fun a b => a.sshiftRight (b.toNat % 64)), (.ror g f, fun a b => a.rotateRight (b.toNat % 64)),
        (.slt g f, fun a b => if a.toInt < b.toInt then 1 else 0), (.sltu g f, fun a b => if a.toNat < b.toNat then 1 else 0),
        (.min g f, fun a b => if a.toInt < b.toInt then a else b), (.max g f, fun a b => if a.toInt < b.toInt then b else a),
        (.minu g f, fun a b => if a.toNat < b.toNat then a else b),
        (.maxu g f, fun a b => if a.toNat < b.toNat then b else a)] : List (Instr × (Word64 → Word64 → Word64))),
      exec x.1 s = .next ((s.putS g f.rd (x.2 ((s.cell g).pil.readS f.ra) ((s.cell g).pil.readS f.rb))).retired g)

/-- R165, R166, R207: a multiply has its product, or its half, under way for 3 or 4 cycles; a divide its quotient or remainder for 34, with the
divider busy as long. A divide by 0 and the quotient that overflows have the values of R166. OPRW computes on the low halves and sign-extends; its
adds, shifts and logic take 1 cycle, MULW 3 and its divides 18. -/
def Obligations.MultiplyDivideAndWordResults : Prop :=
  (
    ∀ (g : CellId) (f : RFmt) (s : State), f.hi = 0 →
      (∀ x ∈ ([(.mul g f, 3, fun a b => a.toInt * b.toInt), (.mulh g f, 4, fun a b => a.toInt * b.toInt / 2 ^ 64),
            (.mulhu g f, 4, fun a b => a.toNat * b.toNat / 2 ^ 64), (.mulhsu g f, 4, fun a b => a.toInt * b.toNat / 2 ^ 64)] :
            List (Instr × Nat × (Word64 → Word64 → Int))),
        s.canIssue g (usesS [f.ra, f.rb] f.rd x.2.1) = true →
          exec x.1 s = .next ((s.willPut g false f.rd
            ((BitVec.ofInt 64 (x.2.2 ((s.cell g).pil.readS f.ra) ((s.cell g).pil.readS f.rb))).setWidth 128)
            (s.clk.cc + x.2.1 - 1)).retired g)) ∧
      (∀ x ∈ ([(.div g f, fun a b => if b = 0 then -1 else a.toInt.tdiv b.toInt),
            (.divu g f, fun a b => if b = 0 then -1 else a.toNat / b.toNat),
            (.rem g f, fun a b => if b = 0 then a.toInt else a.toInt.tmod b.toInt),
            (.remu g f, fun a b => if b = 0 then a.toInt else a.toNat % b.toNat)] : List (Instr × (Word64 → Word64 → Int))),
        s.canIssue g { usesS [f.ra, f.rb] f.rd 34 with unitFree := (s.cell g).pil.intDiv } = true →
          exec x.1 s = .next (((s.willPut g false f.rd
            ((BitVec.ofInt 64 (x.2 ((s.cell g).pil.readS f.ra) ((s.cell g).pil.readS f.rb))).setWidth 128)
            (s.clk.cc + 34 - 1)).useIntDiv g 34).retired g))) ∧
  (
    ∀ (g : CellId) (f : RFmt) (s : State), f.hi = 0 →
      let lo (r : BitVec 5) : BitVec 32 := ((s.cell g).pil.readS r).setWidth 32
      (∀ x ∈ ([(0x00, fun a b => a + b), (0x01, fun a b => a - b), (0x02, fun a b => a &&& b), (0x03, fun a b => a ||| b),
            (0x04, fun a b => a ^^^ b), (0x05, fun a b => a &&& ~~~b), (0x06, fun a b => a <<< (b.toNat % 32)),
            (0x07, fun a b => a >>> (b.toNat % 32)), (0x08, fun a b => a.sshiftRight (b.toNat % 32)),
            (0x09, fun a b => if a.toInt < b.toInt then 1 else 0), (0x0A, fun a b => if a.toNat < b.toNat then 1 else 0)] :
            List (BitVec 6 × (BitVec 32 → BitVec 32 → BitVec 32))),
        s.canIssue g (usesS [f.ra, f.rb] f.rd 1) = true →
          exec (.oprw g x.1 f) s = .next ((s.putS g f.rd ((x.2 (lo f.ra) (lo f.rb)).signExtend 64)).retired g)) ∧
      (s.canIssue g (usesS [f.ra, f.rb] f.rd 3) = true →
        exec (.oprw g 0x10 f) s = .next ((s.willPut g false f.rd (((lo f.ra * lo f.rb).signExtend 64).setWidth 128)
          (s.clk.cc + 3 - 1)).retired g)) ∧
      (∀ x ∈ ([(0x14, fun a b => if b = 0 then -1 else a.toInt.tdiv b.toInt),
            (0x15, fun a b => if b = 0 then -1 else a.toNat / b.toNat),
            (0x16, fun a b => if b = 0 then a.toInt else a.toInt.tmod b.toInt),
            (0x17, fun a b => if b = 0 then a.toInt else a.toNat % b.toNat)] : List (BitVec 6 × (BitVec 32 → BitVec 32 → Int))),
        s.canIssue g { usesS [f.ra, f.rb] f.rd 18 with unitFree := (s.cell g).pil.intDiv } = true →
          exec (.oprw g x.1 f) s = .next (((s.willPut g false f.rd
            (((BitVec.ofInt 32 (x.2 (lo f.ra) (lo f.rb))).signExtend 64).setWidth 128) (s.clk.cc + 18 - 1)).useIntDiv g 18).retired g)))

/-- R167: an immediate instruction writes its function of ra and its immediate, sign-extended, or zero-extended for the logic; shifts take their
amount from the word, and their W forms shift the low half by less than 32 and sign-extend. -/
def Obligations.ImmediateResults : Prop :=
  ∀ (g : CellId) (s : State),
    (∀ f : IFmt, s.canIssue g (usesS [f.ra] f.rd 1) = true →
      let i : Word64 := f.imm.signExtend 64
      let z : Word64 := f.imm.setWidth 64
      ∀ x ∈ ([(.addi g f, fun a => a + i), (.addiw g f, fun a => ((a + i).setWidth 32).signExtend 64), (.andi g f, fun a => a &&& z),
          (.ori g f, fun a => a ||| z), (.xori g f, fun a => a ^^^ z), (.slti g f, fun a => if a.toInt < i.toInt then 1 else 0),
          (.sltiu g f, fun a => if a.toNat < i.toNat then 1 else 0)] : List (Instr × (Word64 → Word64))),
        exec x.1 s = .next ((s.putS g f.rd (x.2 ((s.cell g).pil.readS f.ra))).retired g)) ∧
    (∀ f : ShFmt, f.mid = 0 → s.canIssue g (usesS [f.ra] f.rd 1) = true →
      let a := (s.cell g).pil.readS f.ra
      let w : BitVec 32 := a.setWidth 32
      let k := f.shamt.toNat
      (∀ x ∈ ([(.slli g f, a <<< k), (.srli g f, a >>> k), (.srai g f, a.sshiftRight k), (.rori g f, a.rotateRight k)] :
          List (Instr × Word64)), exec x.1 s = .next ((s.putS g f.rd x.2).retired g)) ∧
      (k < 32 → ∀ x ∈ ([(.slliw g f, w <<< k), (.srliw g f, w >>> k), (.sraiw g f, w.sshiftRight k)] : List (Instr × BitVec 32)),
        exec x.1 s = .next ((s.putS g f.rd (x.2.signExtend 64)).retired g)))

/-- R167: CSET places a halfword, with its sign above and zeros below; CINS replaces one halfword of rd; CREP repeats one four times. R180, R181:
bit-field extract, zero- or sign-extended, insert and clear, of a field given in the word or in rb. Bits past 63 read as 0 and are not written. -/
def Obligations.ConstantAndBitFieldResults : Prop :=
  (
    ∀ (g : CellId) (f : MFmt) (s : State),
      (s.canIssue g (usesS [] f.rd 1) = true →
        exec (.cset g f) s = .next ((s.putS g f.rd (f.imm.signExtend 64 <<< (16 * f.hw.toNat))).retired g) ∧
        (f.hw = 0 → exec (.crep g f) s = .next ((s.putS g f.rd (f.imm ++ f.imm ++ f.imm ++ f.imm)).retired g))) ∧
      (s.canIssue g (usesS [f.rd] f.rd 1) = true →
        ∃ v : Word64, exec (.cins g f) s = .next ((s.putS g f.rd v).retired g) ∧
          ∀ i < 64, v.getLsbD i = if i / 16 = f.hw.toNat then f.imm.getLsbD (i % 16) else ((s.cell g).pil.readS f.rd).getLsbD i)) ∧
  (
    ∀ (g : CellId) (s : State) (rd ra : BitVec 5) (pos len : Nat),
      let a := (s.cell g).pil.readS ra
      let d := (s.cell g).pil.readS rd
      let x := a.toNat / 2 ^ pos % 2 ^ len
      let sx : Int := if 2 * x < 2 ^ len then x else x - 2 ^ len
      let ins (src v : Word64) : Prop :=
        ∀ i < 64, v.getLsbD i = if pos ≤ i ∧ i < pos + len then src.getLsbD (i - pos) else d.getLsbD i
      let wrote (i : Instr) (P : Word64 → Prop) : Prop := ∃ v : Word64, exec i s = .next ((s.putS g rd v).retired g) ∧ P v
      (∀ f : BfFmt, f.rd = rd → f.ra = ra → f.pos.toNat = pos → f.lenm1.toNat + 1 = len →
        (s.canIssue g (usesS [ra] rd 1) = true →
          wrote (.bfx g f) (fun v => v.toNat = x) ∧ wrote (.bfxs g f) (fun v => v = BitVec.ofInt 64 sx)) ∧
        (s.canIssue g (usesS [ra, rd] rd 1) = true →
          wrote (.bfi g f) (ins a) ∧ (ra = 0 → wrote (.bfc g f) (ins 0)))) ∧
      (∀ f : RFmt, f.rd = rd → f.ra = ra → f.hi = 0 → ((s.cell g).pil.readS f.rb).toNat % 64 = pos →
        ((s.cell g).pil.readS f.rb).toNat / 256 % 64 + 1 = len →
        (s.canIssue g (usesS [ra, f.rb] rd 1) = true →
          wrote (.bfxv g f) (fun v => v.toNat = x) ∧ wrote (.bfxsv g f) (fun v => v = BitVec.ofInt 64 sx)) ∧
        (s.canIssue g (usesS [ra, f.rb, rd] rd 1) = true → wrote (.bfiv g f) (ins a))))

/-- R180, R182: leading and trailing zeros and set bits of a word or of its low half; byte reversals; the byte permutation. -/
def Obligations.CountAndPermuteResults : Prop :=
  ∀ (g : CellId) (f : RFmt) (s : State), f.hi = 0 →
    let a := (s.cell g).pil.readS f.ra
    let b := (s.cell g).pil.readS f.rb
    let byte (v : Word64) (i : Nat) : Nat := v.toNat / 256 ^ i % 256
    let wrote (i : Instr) (P : Word64 → Prop) : Prop := ∃ v : Word64, exec i s = .next ((s.putS g f.rd v).retired g) ∧ P v
    let lead (w : Nat) (v : Word64) : Prop :=
      v.toNat ≤ w ∧ a.toNat % 2 ^ w < 2 ^ (w - v.toNat) ∧ (v.toNat < w → 2 ^ (w - 1 - v.toNat) ≤ a.toNat % 2 ^ w)
    let trail (w : Nat) (v : Word64) : Prop :=
      v.toNat ≤ w ∧ (∀ i < v.toNat, a.getLsbD i = false) ∧ (v.toNat < w → a.getLsbD v.toNat = true)
    let ones (w : Nat) (v : Word64) : Prop := v.toNat = ((List.range w).filter fun i => a.getLsbD i).length
    let swap (n : Nat) (v : Word64) : Prop := ∀ i < 8, byte v i = if i < n then byte a (n - 1 - i) else 0
    (f.rb = 0 → s.canIssue g (usesS [f.ra] f.rd 1) = true →
      ∀ x ∈ ([(.clz g f, lead 64), (.clzw g f, lead 32), (.ctz g f, trail 64), (.ctzw g f, trail 32), (.popc g f, ones 64),
          (.popcw g f, ones 32), (.bswap16 g f, swap 2), (.bswap32 g f, swap 4), (.bswap64 g f, swap 8)] :
          List (Instr × (Word64 → Prop))), wrote x.1 x.2) ∧
    (s.canIssue g (usesS [f.ra, f.rb] f.rd 1) = true →
      wrote (.bperm g f) fun v => ∀ i < 8, byte v i =
        let n := b.toNat / 2 ^ (4 * i) % 16
        if 8 ≤ n then 0 else byte a n)

/-- R157, R206, R207: an instruction that writes one s register leaves everything else: every other register, the floating-point state, memory,
other cells and the rest of the module; a write to s0 is discarded, and s0 reads as 0. One whose result is under way leaves every register as it is
until the result lands, and all else. -/
def Obligations.RegisterWriteFrame : Prop :=
  ∀ (s : State) (g : CellId) (rd : BitVec 5),
    let c := s.cell g
    let rest (t : State) : Prop :=
      let d := t.cell g
      (∀ r, d.pil.readW r = c.pil.readW r) ∧ d.pil.pc = c.pil.pc + 4 ∧ d.fp = c.fp ∧ d.exc = c.exc ∧
        d.vec = c.vec ∧ d.arr = c.arr ∧ d.mov = c.mov ∧ d.uc = c.uc ∧ d.mbox = c.mbox ∧ d.id = c.id ∧ d.stores = c.stores ∧
        (∀ a, d.ls.read a = c.ls.read a ∧ d.win.read a = c.win.read a ∧ d.slice.read a = c.slice.read a) ∧
        (∀ a, t.hbm.mem.read a = s.hbm.mem.read a) ∧ s.sameBut t g
    (∀ v : Word64,
      let t := (s.putS g rd v).retired g
      let d := t.cell g
      (rd ≠ 0 → d.pil.readS rd = v) ∧ (∀ r, r ≠ rd → d.pil.readS r = c.pil.readS r) ∧ d.pil.readS 0 = 0 ∧ d.pil.wbs = c.pil.wbs ∧ rest t) ∧
    ∀ (wide : Bool) (v : BitVec 128) (due : Nat),
      let t := (s.willPut g wide rd v due).retired g
      (∀ r, (t.cell g).pil.readS r = c.pil.readS r) ∧ rest t

/-! Pilot: control transfers (R172, R203). -/

/-- R172, R203: a branch goes to pc + 4 × simm16 with the next instruction 7 cc later where its condition holds, and else to the next word with the
next instruction in the next cc. JAL writes the address of the next word to s1 and goes to pc + 4 × simm26; JALR writes it to rd and goes to ra +
simm16 with bits 1 and 0 cleared, ra read before rd is written. -/
def Obligations.BranchAndJumpResults : Prop :=
  ∀ (g : CellId) (s : State),
    let pc := (s.cell g).pil.pc
    (∀ f : BFmt, s.canIssue g { Uses.none' with s := [f.ra, f.rb] } = true →
      let a := (s.cell g).pil.readS f.ra
      let b := (s.cell g).pil.readS f.rb
      ∀ x ∈ ([(.beq g f, a = b), (.bne g f, a ≠ b), (.blt g f, a.toInt < b.toInt), (.bge g f, b.toInt ≤ a.toInt),
          (.bltu g f, a.toNat < b.toNat), (.bgeu g f, b.toNat ≤ a.toNat)] : List (Instr × Prop)),
        (x.2 → exec x.1 s = .next (s.jumped g fun _ => pc + BitVec.ofInt 64 (4 * f.imm.toInt))) ∧
          (¬ x.2 → exec x.1 s = .next (s.retired g))) ∧
    (∀ f : JFmt, s.canIssue g (usesS [] 1 1) = true →
      exec (.jal g f) s = .next ((s.putS g 1 (pc + 4)).jumped g fun _ => pc + BitVec.ofInt 64 (4 * f.imm.toInt))) ∧
    (∀ f : IFmt, s.canIssue g (usesS [f.ra] f.rd 1) = true →
      exec (.jalr g f) s = .next ((s.putS g f.rd (pc + 4)).jumped g fun _ =>
        ((s.cell g).pil.readS f.ra + f.imm.signExtend 64) &&& ~~~3))

/-! Pilot: memory (R168, R169, R206 to R213, R231). -/

/-- R168, R209: a load from an own store, not split, of 1, 2, 4, 8 or 16 bytes: it reads in the cc after its issue and lands 3, 4 or 7 cc after it.
What the read finds in a state with no store on its way and no wrong bit, little-endian, sign- or zero-extended, is the value that lands. -/
def Obligations.OwnLoadResults : Prop :=
  ∀ (g : CellId) (f : IFmt) (s : State) (st : OwnStore) (o : Nat),
    let c := s.cell g
    let a := ownAddr g st o
    (c.pil.readS f.ra + f.imm.signExtend 64).toNat = a →
    ∀ x ∈ ([(.lb g f, 1, false, .sign, fun v => ((BitVec.ofNat 8 v).signExtend 64).setWidth 128),
        (.lh g f, 2, false, .sign, fun v => ((BitVec.ofNat 16 v).signExtend 64).setWidth 128),
        (.lw g f, 4, false, .sign, fun v => ((BitVec.ofNat 32 v).signExtend 64).setWidth 128),
        (.ld g f, 8, false, .zero, BitVec.ofNat 128), (.lbu g f, 1, false, .zero, BitVec.ofNat 128),
        (.lhu g f, 2, false, .zero, BitVec.ofNat 128), (.lwu g f, 4, false, .zero, BitVec.ofNat 128),
        (.fld g f, 8, true, .zero, BitVec.ofNat 128), (.flw g f, 4, true, .zero, BitVec.ofNat 128),
        (.wld g f, 16, true, .zero, BitVec.ofNat 128)] : List (Instr × Nat × Bool × Ext × (Nat → BitVec 128))),
      let n := x.2.1
      let wide := x.2.2.1
      let u : Uses := { s := [f.ra], w := [], dst := some (wide, f.rd), lat := 0, unitFree := 0, mem := true }
      let lat := match st with | .localStore => 3 | .window => 4 | .slice => 7
      let w := loadOf wide f.rd x.2.2.2.1 st o n a lat s.clk.cc
      (o + n ≤ ownSize st c.exc.pl → unsplit st o n → s.canIssue g u = true → s.loadPort g u a n ≤ s.clk.cc →
        exec x.1 s = .next ((s.loading g st w).retired g)) ∧
      ∀ r : State, (r.cell g).stores = [] → ((r.cell g).ownMem st).bad = [] → ((r.cell g).ownMem st).soft = [] →
        r.clk.cc = s.clk.cc + 1 →
        let bs := ((r.cell g).ownMem st).readBytes o n
        r.wbReads g w = (r, { w with reads := [], got := bs, val := x.2.2.2.2 (leNat bs) })

/-- R168, R209: a store to an own store, not split: the low 1, 2, 4, 8 or 16 bytes of its register, little-endian, are on their way and visible 1, 2
or 4 cc after issue; nothing else changes. A user-level store to the window is not of this form (R169). -/
def Obligations.OwnStoreResults : Prop :=
  ∀ (g : CellId) (f : SFmt) (s : State) (st : OwnStore) (o : Nat),
    let c := s.cell g
    (c.pil.readS f.ra + f.imm.signExtend 64).toNat = ownAddr g st o → (st = .window → c.exc.pl = true) →
    ∀ x ∈ ([(.sb g f, 1, false), (.sh g f, 2, false), (.sw g f, 4, false), (.sd g f, 8, false), (.fsd g f, 8, true),
        (.fsw g f, 4, true), (.wst g f, 16, true)] : List (Instr × Nat × Bool)),
      let v := if x.2.2 then (c.pil.readW f.rs).toNat else (c.pil.readS f.rs).toNat
      let u : Uses := { s := if x.2.2 then [f.ra] else [f.ra, f.rs], w := if x.2.2 then [f.rs] else [], dst := none, lat := 1,
                        unitFree := 0, mem := true }
      let vis := match st with | .localStore => 1 | .window => 2 | .slice => 4
      o + x.2.1 ≤ ownSize st c.exc.pl → unsplit st o x.2.1 → s.canIssue g u = true → c.pil.portFree st ≤ s.clk.cc →
        exec x.1 s = .next ((s.updCell g fun c =>
          { c with stores := c.stores ++ [{ by' := .pilot, store := st, off := o, bytes := leBytes v x.2.1, vis := s.clk.cc + vis,
                                            since := s.clk.cc }]
                   pil := c.pil.usePort st s.clk.cc 1 }).retired g)

/-- R209: when a waiting store becomes visible, exactly its bytes of its own store change. -/
def Obligations.StoreBecomesVisible : Prop :=
  ∀ (s : State) (g : CellId) (p : PendStore) (t a : Nat), (s.cell g).stores = [p] → p.vis < t →
    let d := (s.landStores g t).cell g
    let m := (s.cell g).ownMem p.store
    d.stores = [] ∧
      ((d.ownMem p.store).read a = if p.off ≤ a ∧ a < p.off + p.bytes.length then p.bytes.getD (a - p.off) 0 else m.read a) ∧
      (∀ st, st ≠ p.store → (d.ownMem st).read a = ((s.cell g).ownMem st).read a) ∧
      (∀ h, h ≠ g → (s.landStores g t).cell h = s.cell h) ∧ (s.landStores g t).hbm = s.hbm

/-- R28, R31, R32, R169, R171, R231: a load or store that touches a byte of the refuge region at user level faults PRIV, at the first byte of the
half that lies there; so does a user-level store to the window, and a user-level access to a register of the own alias other than the three of R32.
An access to a hole faults ACCESS, as do a misaligned LDA or STREL and an access to a register that is not an aligned doubleword. The fault is that
of the instruction, with its address; nothing is loaded or stored. -/
def Obligations.ForbiddenAccessFaults : Prop :=
  ∀ (g : CellId) (f : IFmt) (fs : SFmt) (y : YFmt) (s : State) (a : Nat),
    let c := s.cell g
    let user : Prop := c.exc.pl = false
    let hole (n : Nat) : Prop := 0x40000 ≤ a ∧ a + n ≤ 0x100000
    let ofUser (off : Nat) : Prop := off = 0x100 ∨ off = 0x108 ∨ off = 0x110
    let traps (wr : Bool) (word : Word32) (out : Host.Outcome State Fault Refusal) (code : Nat) (half : Bool) (at' : Nat) : Prop :=
      out = .next (s.fault g code wr half (BitVec.ofNat 64 at') 0 word)
    let forbids (n : Nat) (dw whole : Bool) (traps : Nat → Bool → Nat → Prop) : Prop :=
      (user → 0x3F000 ≤ a → a < 0x40000 → traps 2 false a) ∧
      (user → a < 0x3F000 → 0x3F000 < a + n → traps 2 true 0x3F000) ∧
      (hole n → traps 3 false a) ∧
      (c.exc.pl = true → a < 0x40000 → 0x40000 < a + n → traps 3 (!whole) (if whole then a else 0x40000)) ∧
      (0xFFFF8000 ≤ a → a < 0x100000000 → let off := a - 0xFFFF8000
        (user → ¬ ofUser off → traps 2 false a) ∧ (c.exc.pl = true → (dw = false ∨ a % 8 ≠ 0) → traps 3 false a))
    ((c.pil.readS f.ra + f.imm.signExtend 64).toNat = a → ∀ x ∈ ([(.lb g f, 0b010000, 1, false, false), (.lh g f, 0b010001, 2, false, false),
        (.lw g f, 0b010010, 4, false, false), (.ld g f, 0b010011, 8, false, true), (.lbu g f, 0b010100, 1, false, false),
        (.lhu g f, 0b010101, 2, false, false), (.lwu g f, 0b010110, 4, false, false), (.fld g f, 0b011100, 8, true, false),
        (.flw g f, 0b011101, 4, true, false), (.wld g f, 0b100000, 16, true, false)] : List (Instr × Nat × Nat × Bool × Bool)),
      let n := x.2.2.1
      let u : Uses := { s := [f.ra], w := [], dst := some (x.2.2.2.1, f.rd), lat := 0, unitFree := 0, mem := true }
      s.canIssue g u = true → s.loadPort g u a n ≤ s.clk.cc → forbids n x.2.2.2.2 false (traps false (encI x.2.1 f) (exec x.1 s))) ∧
    ((c.pil.readS fs.ra + fs.imm.signExtend 64).toNat = a → ∀ x ∈ ([(.sb g fs, 0b011000, 1, false, false), (.sh g fs, 0b011001, 2, false, false),
        (.sw g fs, 0b011010, 4, false, false), (.sd g fs, 0b011011, 8, false, true), (.fsd g fs, 0b011110, 8, true, false),
        (.fsw g fs, 0b011111, 4, true, false), (.wst g fs, 0b100001, 16, true, false)] : List (Instr × Nat × Nat × Bool × Bool)),
      let n := x.2.2.1
      let u : Uses := { s := if x.2.2.2.1 then [fs.ra] else [fs.ra, fs.rs], w := if x.2.2.2.1 then [fs.rs] else [], dst := none, lat := 1,
                        unitFree := 0, mem := true }
      let traps := traps true (encS x.2.1 fs) (exec x.1 s)
      s.canIssue g u = true → s.memPort g a ≤ s.clk.cc →
        forbids n x.2.2.2.2 false traps ∧ (user → 0x100000 ≤ a → a + n ≤ 0x140000 → traps 2 false a)) ∧
    ((c.pil.readS y.ra + y.imm.signExtend 64 * 8).toNat = a →
      let ul : Uses := { s := [y.ra], w := [], dst := some (false, y.rd), lat := 0, unitFree := 0, mem := true }
      let us : Uses := { s := [y.ra, y.rd], w := [], dst := none, lat := 1, unitFree := 0, mem := true }
      let go := s.clk.cc + 1 + (if y.scope = 3 then 1 else 0)
      let s1 := s.waitFor g go 4
      let c1 := s1.cell g
      (s.canIssue g ul = true → s.loadPort g ul a 8 ≤ s.clk.cc →
        forbids 8 true true (traps false (encY 0 y) (exec (.lda g y) s)) ∧
        (a % 8 ≠ 0 → a + 8 ≤ 0x3F000 → traps false (encY 0 y) (exec (.lda g y) s) 3 false a)) ∧
      (s.canIssue g us = true → c.settledAt ≤ go → s.memPort g a ≤ go → s1.fetches g = true → s1.clk.cc = go → c1.pil.remotes = [] →
        (y.scope = 3 → s1.putsOut g = false) → (c1.pil.readS y.ra + y.imm.signExtend 64 * 8).toNat = a →
        let traps (code : Nat) : Prop := exec (.strel g y) s = .next (s1.fault g code true false (BitVec.ofNat 64 a) 0 (encY 1 y))
        (c1.exc.pl = false → 0x3F000 ≤ a → a < 0x40000 → traps 2) ∧ (c1.exc.pl = false → 0x100000 ≤ a → a + 8 ≤ 0x140000 → traps 2) ∧
        (hole 8 → traps 3) ∧ (a % 8 ≠ 0 → a + 8 ≤ 0x3F000 → traps 3)))

/-! Pilot: floating point and short vectors (R173 to R179). -/

/-- R173, R174, R207: FOP computes in its format on f registers under CELL_FPCTL.PRM: an exact result rounded once; the flags are merged and the
result is under way for its latency (4 for FP64 and 3 for the others; FDIV 24, 14, 9; FSQRT 30, 16, 10, with the divider busy as long). R56 to R58,
R65, R66: the rounding itself, of an exact value v > 0 with its sign apart (v is m times a power of two, or, where `sticky`, lies above that by less
than a unit): to the nearest finite value with ties to the even encoding, toward zero, or up with the draw of SR; a value beyond the finite ones
overflows to infinity or to the largest finite value with OF and NX; NX says that the result is not v, UF that v is below the smallest normal. -/
def Obligations.ScalarFloatResults : Prop :=
  (
    ∀ (g : CellId) (f : FFmt) (s : State), f.hi = 0 →
      let t := fopFmt f.fmt
      let l (a b c : Nat) : Nat := if t = .fp64 then a else if t = .fp32 then b else c
      let m := Rnd.plain (s.cell g).fp.prm
      let x := ((s.cell g).pil.readF f.ra).toNat
      let y := ((s.cell g).pil.readF f.rb).toNat
      let ends (r : FRes) (lat : Nat) (u : State) : State :=
        ((u.flagPil g r.flags).willPut g true f.rd (BitVec.ofNat 128 r.bits) (s.clk.cc + lat - 1)).retired g
      (s.canIssue g (usesW [f.ra, f.rb] true f.rd (l 4 3 3)) = true →
        ∀ z ∈ ([(.fadd g f, t.fadd m false (t.decodeF x) (t.decodeF y)), (.fsub g f, t.fadd m false (t.decodeF x) (t.decodeF y).neg),
            (.fmul g f, t.fmul m (t.decodeF x) (t.decodeF y)), (.fmin g f, t.fminmax false x y), (.fmax g f, t.fminmax true x y)] :
            List (Instr × FRes)), exec z.1 s = .next (ends z.2 (l 4 3 3) s)) ∧
      (s.canIssue g { usesW [f.ra, f.rb] true f.rd (l 24 14 9) with unitFree := (s.cell g).pil.fpDiv } = true →
        exec (.fdiv g f) s = .next (ends (t.fdiv m (t.decodeF x) (t.decodeF y)) (l 24 14 9)
          (s.updPil g fun p => { p with fpDiv := s.clk.cc + l 24 14 9 }))) ∧
      (f.rb = 0 → s.canIssue g { usesW [f.ra] true f.rd (l 30 16 10) with unitFree := (s.cell g).pil.fpDiv } = true →
        exec (.fsqrt g f) s = .next (ends (t.fsqrt m (t.decodeF x)) (l 30 16 10)
          (s.updPil g fun p => { p with fpDiv := s.clk.cc + l 30 16 10 })))) ∧
  ∀ (f : Elem) (r : Rnd) (s sticky : Bool) (m : Nat) (e : Int) (v : ℚ), f.isFloat = true → 0 < v →
    (m : ℚ) * 2 ^ e ≤ v → v < ((m : ℚ) + 1) * 2 ^ e → (sticky = true ↔ v ≠ (m : ℚ) * 2 ^ e) →
    (sticky = true → 2 ^ (f.mbits + 2) ≤ m ∧ ∀ d, r ≠ .sr d) →
      let val (b : Nat) : ℚ := match f.decodeF b with
        | .fin _ k x => (k : ℚ) * 2 ^ x
        | _ => 0
      let z := f.roundFin r s m e sticky
      let ulp := val f.maxFinite - val (f.maxFinite - 1)
      let above (b : Nat) : ℚ := if b = f.maxFinite then val f.maxFinite + ulp else val (b + 1)
      let finite (b : Nat) : Prop := b ≤ f.maxFinite ∧ z.bits = (if s then 2 ^ (f.width - 1) else 0) + b ∧
        z.flags = (if val b ≠ v then flNX else 0) ||| (if v < 2 ^ f.emin then flUF else 0)
      let overflows : Prop := z.flags = flOF ||| flNX ∧ z.bits = (if s then 2 ^ (f.width - 1) else 0) +
        if f.hasInf = true ∧ r ≠ .rtz then (2 ^ (f.width - 1 - f.mbits) - 1) * 2 ^ f.mbits else f.maxFinite
      match r with
      | .rtz => if v < val f.maxFinite + ulp then ∃ b, finite b ∧ val b ≤ v ∧ v < above b else overflows
      | .rne =>
        if v < val f.maxFinite + ulp / 2 ∨ v = val f.maxFinite + ulp / 2 ∧ f.maxFinite % 2 = 0 then
          ∃ b, finite b ∧ ∀ b' ≤ f.maxFinite, b' ≠ b → |v - val b| < |v - val b'| ∨ |v - val b| = |v - val b'| ∧ b % 2 = 0
        else overflows
      | .sr d => d < 2 ^ 16 →
        if v < val f.maxFinite + ulp then
          ∃ b ≤ f.maxFinite, val b ≤ v ∧ v < above b ∧
            if 2 ^ 16 ≤ ⌊(v - val b) / (above b - val b) * 2 ^ 16⌋ + (d : Int) then
              (if b = f.maxFinite then overflows else finite (b + 1))
            else finite b
        else overflows

/-- R160, R173, R176: FABS and FNEG, and the moves between the s and f files, write in their issue cc; compares give 1 or 0 to rd two cc after; a
move to an f register clears the rest of it. -/
def Obligations.ScalarFloatMoveAndCompareResults : Prop :=
  ∀ (g : CellId) (f : FFmt) (s : State), f.hi = 0 →
    let t := fopFmt f.fmt
    let c := s.cell g
    let x := (c.pil.readF f.ra).toNat
    let y := (c.pil.readF f.rb).toNat
    (f.rb = 0 → s.canIssue g (usesW [f.ra] true f.rd 1) = true →
      ∀ z ∈ ([(.fabs g f, absElem t x), (.fneg g f, t.fsign true x)] : List (Instr × FRes)),
        exec z.1 s = .next (((s.flagPil g z.2.flags).updPil g fun p => p.writeW f.rd (BitVec.ofNat 128 z.2.bits)).retired g)) ∧
    (f.rb = 0 → f.fmt = 0 → s.canIssue g { usesS [f.ra] 0 1 with dst := some (true, f.rd) } = true →
      exec (.fmvsf g f) s = .next ((s.updPil g fun p => p.writeW f.rd ((c.pil.readS f.ra).setWidth 128)).retired g)) ∧
    (f.rb = 0 → f.fmt = 0 → s.canIssue g (usesW [f.ra] false f.rd 1) = true →
      exec (.fmvfs g f) s = .next ((s.putS g f.rd (c.pil.readF f.ra)).retired g)) ∧
    (s.canIssue g (usesW [f.ra, f.rb] false f.rd 2) = true →
      ∀ z ∈ ([(.feq g f, .eq), (.flt g f, .lt), (.fle g f, .le)] : List (Instr × Rel)),
        exec z.1 s = .next (((s.flagPil g (t.fcmp z.2 x y).2).willPut g false f.rd (if (t.fcmp z.2 x y).1 then 1 else 0)
          (s.clk.cc + 2 - 1)).retired g))

/-- R175: the four fused forms round a × b + c once, with the signs of product and addend as named; 5 cc for FP64, else 4. FCVT converts between
formats, integers in s registers, in 3 cc. -/
def Obligations.FusedAndConversionResults : Prop :=
  ∀ (g : CellId) (s : State),
    let m := Rnd.plain (s.cell g).fp.prm
    let r (x : BitVec 5) : Nat := ((s.cell g).pil.readF x).toNat
    (∀ f : FmFmt, f.low = 0 →
      let t := fopFmt f.fmt
      let lat := if t = .fp64 then 5 else 4
      let a := t.decodeF (r f.fa)
      let b := t.decodeF (r f.fb)
      let c := t.decodeF (r f.fc)
      s.canIssue g (usesW [f.fa, f.fb, f.fc] true f.fd lat) = true →
        ∀ z ∈ ([(.fmadd g f, t.ffma m a b c), (.fmsub g f, t.ffma m a b c.neg), (.fnmadd g f, t.ffma m a.neg b c),
            (.fnmsub g f, t.ffma m a.neg b c.neg)] : List (Instr × FRes)),
          exec z.1 s = .next (((s.flagPil g z.2.flags).willPut g true f.fd (BitVec.ofNat 128 z.2.bits) (s.clk.cc + lat - 1)).retired g)) ∧
    (∀ (f : CvFmt) (src dst : Elem), f.low = 0 → cvtFmt f.src = some src → cvtFmt f.dst = some dst → f.src ≠ f.dst →
      let x := if src.isFloat then r f.ra else ((s.cell g).pil.readS f.ra).toNat
      let z := convertElem src dst m x
      s.canIssue g { s := if src.isFloat then [] else [f.ra], w := if src.isFloat then [f.ra] else [],
                     dst := some (dst.isFloat, f.rd), lat := 3, unitFree := 0, mem := false } = true →
        exec (.fcvt g f) s = .next (((s.flagPil g z.flags).willPut g dst.isFloat f.rd (BitVec.ofNat 128 (scalarOf dst z.bits))
          (s.clk.cc + 3 - 1)).retired g))

/-- R178, R179: WOP on the elements of w registers: each element of the result is the function of the elements at its place. -/
def Obligations.ShortVectorElementResults : Prop :=
  ∀ (g : CellId) (f : WFmt) (s : State) (t : Elem), f.hi = 0 → wType f.ty = some t →
    let m := Rnd.plain (s.cell g).fp.prm
    let el (r : BitVec 5) (i : Nat) : Nat := ((s.cell g).pil.readW r).toNat / 2 ^ (t.width * i) % 2 ^ t.width
    let n := 128 / t.width
    let lat (a b : Nat) : Nat := if t.isFloat then (if t = .fp64 then a else b) else 2
    let fi (ff : FVal → FVal → FRes) (gi : Int → Int → Int) (x y : Nat) : FRes :=
      if t.isFloat then ff (t.decodeF x) (t.decodeF y) else ⟨t.encodeI (gi (t.decodeI x) (t.decodeI y)), 0⟩
    let ends (i : Instr) (l : Nat) (e : Nat → FRes) : Prop :=
      ∃ (v : BitVec 128) (fl : FFlags),
        exec i s = .next (((s.flagPil g fl).willPut g true f.rd v (s.clk.cc + l - 1)).retired g) ∧
          (∀ i < n, v.toNat / 2 ^ (t.width * i) % 2 ^ t.width = (e i).bits % 2 ^ t.width) ∧
          fl = (List.range n).foldl (fun a i => a ||| (e i).flags) 0
    (s.canIssue g (usesW [f.ra, f.rb] true f.rd (lat 4 3)) = true →
      ends (.wadd g f) (lat 4 3) (fun i => fi (t.fadd m false) (· + ·) (el f.ra i) (el f.rb i)) ∧
      ends (.wsub g f) (lat 4 3) (fun i => fi (fun a b => t.fadd m false a b.neg) (· - ·) (el f.ra i) (el f.rb i)) ∧
      ends (.wmul g f) (lat 4 3) (fun i => fi (t.fmul m) (· * ·) (el f.ra i) (el f.rb i)) ∧
      ends (.wmin g f) (lat 4 3) (fun i => elemMinMax t false (el f.ra i) (el f.rb i)) ∧
      ends (.wmax g f) (lat 4 3) (fun i => elemMinMax t true (el f.ra i) (el f.rb i))) ∧
    (t.isFloat = true → s.canIssue g (usesW [f.ra, f.rb, f.rd] true f.rd (lat 5 4)) = true →
      ends (.wfma g f) (lat 5 4) fun i => t.ffma m (t.decodeF (el f.ra i)) (t.decodeF (el f.rb i)) (t.decodeF (el f.rd i))) ∧
    (t.isFloat = false → s.canIssue g (usesW [f.ra, f.rb] true f.rd 2) = true →
      ends (.wand g f) 2 (fun i => ⟨el f.ra i &&& el f.rb i, 0⟩) ∧ ends (.wor g f) 2 (fun i => ⟨el f.ra i ||| el f.rb i, 0⟩) ∧
      ends (.wxor g f) 2 (fun i => ⟨el f.ra i ^^^ el f.rb i, 0⟩))

/-- R178, R179: WCMP gives one bit for each element to rd; WBCAST, WEXT and WINS move between a scalar and the elements; WPICKB takes each byte from
wa, from wd, or a constant, as wb says. -/
def Obligations.ShortVectorMoveResults : Prop :=
  ∀ (g : CellId) (f : WFmt) (s : State) (t : Elem), f.hi = 0 → wType f.ty = some t →
    let c := s.cell g
    let el (r : BitVec 5) (i : Nat) : Nat := (c.pil.readW r).toNat / 2 ^ (t.width * i) % 2 ^ t.width
    let n := 128 / t.width
    let sc := (if t.isFloat then (c.pil.readF f.ra).toNat else (c.pil.readS f.ra).toNat) % 2 ^ t.width
    let ends (i : Instr) (wide : Bool) (P : BitVec 128 → FFlags → Prop) : Prop :=
      ∃ (v : BitVec 128) (fl : FFlags),
        exec i s = .next (((s.flagPil g fl).willPut g wide f.rd v (s.clk.cc + 2 - 1)).retired g) ∧ P v fl
    let at' (v : BitVec 128) (i : Nat) : Nat := v.toNat / 2 ^ (t.width * i) % 2 ^ t.width
    (s.canIssue g (usesW [f.ra, f.rb] false f.rd 2) = true →
      ∀ z ∈ ([(.wcmpeq g f, .eq), (.wcmplt g f, .lt), (.wcmple g f, .le)] : List (Instr × Rel)),
        ends z.1 false fun v fl => (∀ i < n, v.getLsbD i = (elemCmp t z.2 (el f.ra i) (el f.rb i)).1) ∧
          (∀ i, n ≤ i → v.getLsbD i = false) ∧
          fl = (List.range n).foldl (fun a i => a ||| (elemCmp t z.2 (el f.ra i) (el f.rb i)).2) 0) ∧
    (f.rb = 0 → s.canIssue g (if t.isFloat then usesW [f.ra] true f.rd 2 else { usesS [f.ra] 0 2 with dst := some (true, f.rd) }) = true →
      ends (.wbcast g f) true fun v fl => (∀ i < n, at' v i = sc) ∧ fl = 0) ∧
    (f.rb.toNat < n → s.canIssue g (usesW [f.ra] t.isFloat f.rd 2) = true →
      ends (.wext g f) t.isFloat fun v fl => v = BitVec.ofNat 128 (scalarOf t (el f.ra f.rb.toNat)) ∧ fl = 0) ∧
    (f.rb.toNat < n → s.canIssue g { s := if t.isFloat then [] else [f.ra], w := if t.isFloat then [f.ra, f.rd] else [f.rd],
                                      dst := some (true, f.rd), lat := 2, unitFree := 0, mem := false } = true →
      ends (.wins g f) true fun v fl => (∀ i < n, at' v i = if i = f.rb.toNat then sc else el f.rd i) ∧ fl = 0) ∧
    (t = .uint8 → s.canIssue g (usesW [f.ra, f.rb, f.rd] true f.rd 2) = true →
      ends (.wpickb g f) true fun v fl => fl = 0 ∧ ∀ i < 16, at' v i =
        let k := el f.rb i
        if k / 64 = 0 then el f.ra (k % 16) else if k / 64 = 1 then el f.rd (k % 16) else if k / 64 = 2 then 0 else 0xFF)

/-! Pilot: system functions, exceptions, gates and returns (R177, R188 to R190, R218 to R250). -/

/-- R62, R69, R177: FGETS reads the flags of the three engines and both rounding modes; FSETM sets the modes; FCLRF clears each flag that is 1 in
ra. Both take effect at the end of their cc, after a write of the same cc from outside, and flags raised in that cc stand all the same. -/
def Obligations.FloatControlResults : Prop :=
  ∀ (g : CellId) (f : KFmt) (s : State), f.imm = 0 →
    let c := s.cell g
    let v := c.pil.readS f.ra
    let later (off : Nat) : PendReg := { off := off, val := v, vis := s.clk.cc, outer := false }
    (f.ra = 0 → s.canIssue g (usesS [] f.rd 2) = true →
      exec (.fgets g f) s = .next ((s.willPut g false f.rd (BitVec.ofNat 128 (c.fp.pil.toNat + c.fp.vec.toNat * 2 ^ 8
        + c.fp.drn.toNat * 2 ^ 16 + c.fp.prm.toNat * 2 ^ 24 + c.fp.vrm.toNat * 2 ^ 26)) (s.clk.cc + 2 - 1)).retired g)) ∧
    (f.rd = 0 → s.canIssue g { Uses.none' with s := [f.ra] } = true →
      exec (.fsetm g f) s = .next ((s.updCell g fun c => { c with regs := c.regs ++ [later 0x200] }).retired g) ∧
      exec (.fclrf g f) s = .next ((s.updCell g fun c => { c with regs := c.regs ++ [later 0x208] }).retired g)) ∧
    ∀ u : State, let d := u.cell g
      (d.regs = [later 0x200] → (u.landRegs g (s.clk.cc + 1)).cell g =
        { d with regs := [], fp := { d.fp with prm := v.extractLsb' 0 2, vrm := v.extractLsb' 2 2 } }) ∧
      (d.regs = [later 0x208] → ∀ fl : FFlags, d.fp.raised = [(s.clk.cc, fl)] →
        (((u.landRegs g (s.clk.cc + 1)).cell g).landFlags (s.clk.cc + 1)) =
          { d with regs := [], fp := { d.fp with pil := d.fp.pil &&& ~~~v.extractLsb' 0 5 ||| fl, vec := d.fp.vec &&& ~~~v.extractLsb' 8 5,
                                                 drn := d.fp.drn &&& ~~~v.extractLsb' 16 5, raised := [] } })

/-- R101, R188 to R190, R218, R246, R305: where what they wait for has come, the waiting functions pass on: MWAIT with a word in the mailbox, AWAIT
with at most imm10 passes outstanding, MVWAIT with every command up to ra complete; IFENCE fetches afresh 7 cc later; MVDONE reads the ticket up to
which all is complete; GUARD opens a window of imm10 + 1 cc, which its last cc closes. With no pass, mover command or access of its own left and no
abort pending, KEND ends the kernel with exit word ra: the pilot idles, and the end goes to the hub with the mover's error code, if one is recorded,
and the restart floor. -/
def Obligations.WaitAndKernelEndResults : Prop :=
  (
    ∀ (g : CellId) (f : KFmt) (s : State),
      let c := s.cell g
      (f.rd = 0 → f.ra = 0 → f.imm = 0 → s.canIssue g Uses.none' = true →
        (c.mbox.words ≠ [] → exec (.mwait g f) s = .next (s.retired g)) ∧
        (c.windowSettled s.clk.cc ≤ s.clk.cc →
          exec (.ifence g f) s = .next (s.updCell g fun c => c.retire s.clk.cc 7 none 5))) ∧
      (f.rd = 0 → f.ra = 0 → s.canIssue g Uses.none' = true →
        (c.arr.passes.length ≤ f.imm.toNat → exec (.await g f) s = .next (s.retired g)) ∧
        (c.exc.guardEnd = none → exec (.guard g f) s = .next ((s.updCell g fun c =>
          { c with exc := { c.exc with guardEnd := some (s.clk.cc + f.imm.toNat + 1), guardFrom := s.clk.cc + 1 } }).retired g))) ∧
      (f.rd = 0 → f.imm = 0 → s.canIssue g { Uses.none' with s := [f.ra] } = true →
        (∀ m ∈ c.mov.cmds, (c.pil.readS f.ra).toNat < m.ticket) → exec (.mvwait g f) s = .next (s.retired g)) ∧
      (f.ra = 0 → f.imm = 0 → s.canIssue g (usesS [] f.rd 1) = true → c.mov.cmds = [] →
        exec (.mvdone g f) s = .next ((s.putS g f.rd (BitVec.ofNat 64 c.mov.issued)).retired g)) ∧
      (∀ l, c.exc.guardEnd = some l → s.live g = true → l < s.clk.cc →
        exec (.guardWindowClose g) s = .next (s.updCell g fun c => { c with exc := { c.exc with guardEnd := none } }))) ∧
  (
    ∀ (g : CellId) (f : KFmt) (s : State) (r : Running), f.rd = 0 → f.imm = 0 →
      let c := s.cell g
      s.canIssue g { Uses.none' with s := [f.ra] } = true → c.vecDone ≤ s.clk.cc → c.storesDone ≤ s.clk.cc →
      c.pil.loadsDone ≤ s.clk.cc → c.arr.passes = [] → c.mov.cmds = [] → c.pil.remotes = [] → c.exc.pabort = false →
      c.run = some r →
        ∃ t, exec (.kend g f) s = .next t ∧ (t.cell g).pil.mode = .idle ∧ (t.cell g).run = none ∧
          (t.cell g).out = c.out ++ [.ended r.cmd (c.pil.readS f.ra) (if c.mov.valid then some c.mov.code else none) c.arr.floor] ∧
          (∀ x, (t.cell g).pil.readS x = c.pil.readS x) ∧ (∀ a, (t.cell g).ls.read a = c.ls.read a) ∧ s.sameBut t g)

/-- R135, R163, and the tables of R131 to R144, R165, R167, R170, R173 to R180, R183, R188: a reserved sub-field or code, a nonzero field that the
instruction does not use, a type that a function does not have, or a VL, an element or a PART beyond its limit takes ILLEGAL in the issue cc, with
the instruction's word, and nothing else happens. -/
def Obligations.ReservedEncodingsTakeIllegal : Prop :=
  ∀ (g : CellId) (s : State),
    let c := s.cell g
    let refuses (u : Uses) (i : Instr) (word : Word32) : Prop :=
      s.canIssue g u = true → exec i s = .next (s.fault g 0x01 false false 0 0 word)
    let wUses (src : List (BitVec 5)) (rd : BitVec 5) (lat : Nat) : Uses :=
      { s := [], w := src, dst := some (true, rd), lat := lat, unitFree := 0, mem := false }
    let plain (src : List (BitVec 5)) : Uses := { Uses.none' with s := src }
    (∀ f : RFmt,
      (f.hi ≠ 0 → (∀ x ∈ ([(.add g f, 0x00, 1), (.sub g f, 0x01, 1), (.and g f, 0x02, 1), (.or g f, 0x03, 1), (.xor g f, 0x04, 1), (.andn g f, 0x05, 1), (.sll g f, 0x06, 1), (.srl g f, 0x07, 1), (.sra g f, 0x08, 1),
          (.slt g f, 0x09, 1), (.sltu g f, 0x0A, 1), (.min g f, 0x0B, 1), (.max g f, 0x0C, 1), (.minu g f, 0x0D, 1), (.maxu g f, 0x0E, 1),
          (.ror g f, 0x18, 1), (.mul g f, 0x10, 3), (.mulh g f, 0x11, 4), (.mulhu g f, 0x12, 4), (.mulhsu g f, 0x13, 4)] : List (Instr × Nat × Nat)),
          refuses (usesS [f.ra, f.rb] f.rd x.2.2) x.1 (encR 0b000001 x.2.1 f)) ∧
        (∀ x ∈ ([(.div g f, 0x14), (.divu g f, 0x15), (.rem g f, 0x16), (.remu g f, 0x17)] : List (Instr × Nat)),
          refuses { usesS [f.ra, f.rb] f.rd 34 with unitFree := c.pil.intDiv } x.1 (encR 0b000001 x.2 f)) ∧
        (∀ x ∈ ([(.bperm g f, 0x08), (.bfxv g f, 0x10), (.bfxsv g f, 0x11)] : List (Instr × Nat)),
          refuses (usesS [f.ra, f.rb] f.rd 1) x.1 (encR 0b001101 x.2 f)) ∧
        refuses (usesS [f.ra, f.rb, f.rd] f.rd 1) (.bfiv g f) (encR 0b001101 0x12 f)) ∧
      (f.hi ≠ 0 ∨ f.rb ≠ 0 → ∀ x ∈ ([(.clz g f, 0x00), (.ctz g f, 0x01), (.popc g f, 0x02), (.clzw g f, 0x03), (.ctzw g f, 0x04),
          (.popcw g f, 0x05), (.bswap16 g f, 0x09), (.bswap32 g f, 0x0A), (.bswap64 g f, 0x0B)] : List (Instr × Nat)),
        refuses (usesS [f.ra] f.rd 1) x.1 (encR 0b001101 x.2 f)) ∧
      ∀ op : BitVec 6, f.hi ≠ 0 ∨ op = 0x0F ∨ (0x0B ≤ op.toNat ∧ op.toNat ≤ 0x0E) ∨ (0x11 ≤ op.toNat ∧ op.toNat ≤ 0x13) ∨ 0x18 ≤ op.toNat →
        refuses (if 0x14 ≤ op.toNat ∧ op.toNat ≤ 0x17 then { usesS [f.ra, f.rb] f.rd 18 with unitFree := c.pil.intDiv }
          else usesS [f.ra, f.rb] f.rd (if op = 0x10 then 3 else 1)) (.oprw g op f) (encR 0b000010 op.toNat f)) ∧
    (∀ f : MFmt, f.hw ≠ 0 → refuses (usesS [] f.rd 1) (.crep g f) (encM 2 f)) ∧
    (∀ f : BfFmt, f.ra ≠ 0 → refuses (usesS [f.ra, f.rd] f.rd 1) (.bfc g f) (encBf 3 f)) ∧
    (∀ f : ShFmt, ∀ x ∈ ([(.slli g f, 0, false), (.srli g f, 1, false), (.srai g f, 2, false), (.rori g f, 3, false), (.slliw g f, 4, true),
        (.srliw g f, 5, true), (.sraiw g f, 6, true)] : List (Instr × Nat × Bool)),
      f.mid ≠ 0 ∨ (x.2.2 = true ∧ 32 ≤ f.shamt.toNat) → refuses (usesS [f.ra] f.rd 1) x.1 (encSh x.2.1 f)) ∧
    (∀ f : FFmt,
      let by3 (x y z : Nat) : Nat := if f.fmt = 0 then x else if f.fmt = 1 then y else z
      (f.hi ≠ 0 → (∀ x ∈ ([(.fadd g f, 0x00), (.fsub g f, 0x01), (.fmul g f, 0x02), (.fmin g f, 0x05), (.fmax g f, 0x06)] : List (Instr × Nat)),
          refuses (wUses [f.ra, f.rb] f.rd (by3 4 3 3)) x.1 (encF x.2 f)) ∧
        refuses { wUses [f.ra, f.rb] f.rd (by3 24 14 9) with unitFree := c.pil.fpDiv } (.fdiv g f) (encF 0x03 f) ∧
        ∀ x ∈ ([(.feq g f, 0x10), (.flt g f, 0x11), (.fle g f, 0x12)] : List (Instr × Nat)),
          refuses { wUses [f.ra, f.rb] f.rd 2 with dst := some (false, f.rd) } x.1 (encF x.2 f)) ∧
      (f.hi ≠ 0 ∨ f.rb ≠ 0 → refuses { wUses [f.ra] f.rd (by3 30 16 10) with unitFree := c.pil.fpDiv } (.fsqrt g f) (encF 0x04 f) ∧
        refuses (wUses [f.ra] f.rd 1) (.fabs g f) (encF 0x07 f) ∧ refuses (wUses [f.ra] f.rd 1) (.fneg g f) (encF 0x08 f)) ∧
      (f.hi ≠ 0 ∨ f.rb ≠ 0 ∨ f.fmt ≠ 0 → refuses { usesS [f.ra] 0 1 with dst := some (true, f.rd) } (.fmvsf g f) (encF 0x1E f) ∧
        refuses { wUses [f.ra] f.rd 1 with dst := some (false, f.rd) } (.fmvfs g f) (encF 0x1F f))) ∧
    (∀ f : FmFmt, f.low ≠ 0 → ∀ x ∈ ([(.fmadd g f, 0), (.fmsub g f, 1), (.fnmadd g f, 2), (.fnmsub g f, 3)] : List (Instr × Nat)),
      refuses (wUses [f.fa, f.fb, f.fc] f.fd (if f.fmt = 0 then 5 else 4)) x.1 (encFm x.2 f)) ∧
    (∀ f : CvFmt,
      let scalar (k : BitVec 4) : Bool := [0xA, 0xB, 0xD, 0xE].contains k.toNat
      let none' (k : BitVec 4) : Prop := k.toNat ∈ [4, 7, 8, 9, 0xC, 0xF]
      let u (a b : Bool) : Uses := { s := if a then [f.ra] else [], w := if a then [] else [f.ra], dst := some (!b, f.rd), lat := 3, unitFree := 0,
                                     mem := false }
      none' f.src ∨ none' f.dst ∨ f.src = f.dst ∨ f.low ≠ 0 → refuses (u (scalar f.src) (scalar f.dst)) (.fcvt g f) (encCv f)) ∧
    (∀ f : WFmt,
      let k := f.ty.toNat
      let none' : Prop := k ∈ [4, 5, 6, 7, 8, 9, 0xC, 0xF]
      let float : Prop := k < 4
      let lat (x y : Nat) : Nat := if k = 0 then x else if k < 4 then y else 2
      (f.hi ≠ 0 ∨ none' → (∀ x ∈ ([(.wadd g f, 0x0), (.wsub g f, 0x1), (.wmul g f, 0x2), (.wmin g f, 0x3), (.wmax g f, 0x4)] : List (Instr × Nat)),
          refuses (wUses [f.ra, f.rb] f.rd (lat 4 3)) x.1 (encW x.2 f)) ∧
        ∀ x ∈ ([(.wcmpeq g f, 0x10), (.wcmplt g f, 0x11), (.wcmple g f, 0x12)] : List (Instr × Nat)),
          refuses { wUses [f.ra, f.rb] f.rd 2 with dst := some (false, f.rd) } x.1 (encW x.2 f)) ∧
      (f.hi ≠ 0 ∨ ¬ float → refuses (wUses [f.ra, f.rb, f.rd] f.rd (lat 5 4)) (.wfma g f) (encW 0x5 f)) ∧
      (f.hi ≠ 0 ∨ none' ∨ float → ∀ x ∈ ([(.wand g f, 0x8), (.wor g f, 0x9), (.wxor g f, 0xA)] : List (Instr × Nat)),
        refuses (wUses [f.ra, f.rb] f.rd 2) x.1 (encW x.2 f)) ∧
      (f.hi ≠ 0 ∨ k ≠ 0xE → refuses (wUses [f.ra, f.rb, f.rd] f.rd 2) (.wpickb g f) (encW 0x1C f)) ∧
      (float → f.hi ≠ 0 ∨ f.rb ≠ 0 → refuses (wUses [f.ra] f.rd 2) (.wbcast g f) (encW 0x18 f)) ∧
      (¬ float → f.hi ≠ 0 ∨ none' ∨ f.rb ≠ 0 → refuses { usesS [f.ra] 0 2 with dst := some (true, f.rd) } (.wbcast g f) (encW 0x18 f)) ∧
      let n := if k = 0 then 2 else if k = 1 ∨ k = 0xA then 4 else if k = 2 ∨ k = 3 ∨ k = 0xD then 8 else 16
      (f.hi ≠ 0 ∨ none' ∨ n ≤ f.rb.toNat →
        refuses { wUses [f.ra] f.rd 2 with dst := some (decide (k < 4), f.rd) } (.wext g f) (encW 0x19 f) ∧
        refuses { s := if k < 4 then [] else [f.ra], w := if k < 4 then [f.ra, f.rd] else [f.rd], dst := some (true, f.rd), lat := 2,
                  unitFree := 0, mem := false } (.wins g f) (encW 0x1A f))) ∧
    (∀ f : YFmt, (f.rd ≠ 0 ∨ f.ra ≠ 0 ∨ f.imm ≠ 0 → refuses { Uses.none' with mem := true } (.fence g f) (encY 2 f)) ∧
      (f.imm ≠ 0 → refuses { plain [f.ra, f.rd] with mem := true } (.acqr g f) (encY 3 f))) ∧
    (∀ f : RpFmt,
      let u (l : List (BitVec 5)) : Uses := { plain l with mem := true, dst := some (false, f.rd) }
      (f.low ≠ 0 ∨ f.rb ≠ 0 →
        refuses { u [3, 4, 5] with dst := none } (.rcopy g f) (encRp 0 f) ∧ refuses { u [3, 5, f.ra] with dst := none } (.rfill g f) (encRp 1 f) ∧
        refuses (u [3, 4, f.ra]) (.rscan g f) (encRp 2 f) ∧ refuses (u [3, 4, f.ra]) (.rscann g f) (encRp 3 f) ∧
        refuses (u [3, 4, 5]) (.rcmp g f) (encRp 4 f)) ∧
      (f.low ≠ 0 ∨ f.rb ≠ 0 ∨ f.ra ≠ 0 ∨ f.ew ≠ 1 → refuses (u [3, 4, f.rd]) (.rcsum g f) (encRp 7 f)) ∧
      (f.rd ≠ 0 → refuses { u [3, 4, 5] with dst := none } (.rcopy g f) (encRp 0 f) ∧
        refuses { u [3, 5, f.ra] with dst := none } (.rfill g f) (encRp 1 f)) ∧
      (f.ra ≠ 0 → refuses { u [3, 4, 5] with dst := none } (.rcopy g f) (encRp 0 f) ∧ refuses (u [3, 4, 5]) (.rcmp g f) (encRp 4 f)) ∧
      (f.low ≠ 0 ∨ f.ra ≠ 0 ∨ f.ew ≠ 0 ∨ f.rb.toNat % 2 = 1 →
        refuses { u [3, 4] with w := [f.rb, f.rb + 1] } (.rspan g f) (encRp 5 f) ∧
        refuses { u [3, 4] with w := [f.rb, f.rb + 1] } (.rbreak g f) (encRp 6 f))) ∧
    (∀ f : KFmt,
      let sys (fn : Nat) : Word32 := encK 0b101111 fn f
      let eng (fn : Nat) : Word32 := encK 0b110110 fn f
      (f.rd ≠ 0 ∨ f.ra ≠ 0 → refuses (plain ((List.range 32).map (BitVec.ofNat 5))) (.gate g f) (sys 0x01) ∧
        refuses Uses.none' (.guard g f) (sys 0x03) ∧ refuses Uses.none' (.await g f) (eng 0x02)) ∧
      (f.rd ≠ 0 ∨ f.ra ≠ 0 ∨ f.imm ≠ 0 → refuses (plain [1, 2]) (.retx g f) (sys 0x02) ∧ refuses Uses.none' (.ifence g f) (sys 0x04) ∧
        refuses Uses.none' (.mwait g f) (sys 0x06)) ∧
      (f.rd ≠ 0 ∨ f.imm ≠ 0 → refuses (plain [f.ra]) (.kend g f) (sys 0x05) ∧ refuses (plain [f.ra]) (.fsetm g f) (sys 0x09) ∧
        refuses (plain [f.ra]) (.fclrf g f) (sys 0x0A) ∧ refuses { plain [f.ra] with mem := true } (.apass g f) (eng 0x01) ∧
        refuses (plain [f.ra]) (.mvwait g f) (eng 0x05)) ∧
      (f.ra ≠ 0 ∨ f.imm ≠ 0 → refuses (usesS [] f.rd 2) (.fgets g f) (sys 0x08) ∧ refuses (usesS [] f.rd 1) (.mvdone g f) (eng 0x06)) ∧
      (f.imm ≠ 0 → refuses { usesS [f.ra] f.rd 1 with mem := true } (.mviss g f) (eng 0x04))) ∧
    let float : Bool := [0, 1, 2, 3].contains c.vec.vt.toNat
    let vUses (use : Prop) [Decidable use] (r : BitVec 5) : Uses :=
      if use then (if float then { Uses.none' with w := [r] } else plain [r]) else Uses.none'
    let most := 8192 / c.vec.type.width
    c.vec.vt.toNat ∈ [0, 1, 2, 3, 0xA, 0xB, 0xD, 0xE] →
    (∀ f : VrFmt,
      let no (i : Instr) (fn : Nat) : Prop := refuses (vUses (f.sc = 1) f.vb) i (encVr fn f)
      (float = false → no (.vfrcp g f) 0x18 ∧ no (.vfrsq g f) 0x19 ∧ no (.vcmpun g f) 0x14) ∧
      (float = true → no (.vand g f) 0x08 ∧ no (.vor g f) 0x09 ∧ no (.vxor g f) 0x0A ∧ no (.vshl g f) 0x0B ∧ no (.vshr g f) 0x0C) ∧
      (f.vb ≠ 0 ∨ f.sc ≠ 0 → no (.vabs g f) 0x05 ∧ no (.vneg g f) 0x06 ∧ no (.vfrcp g f) 0x18 ∧ no (.vfrsq g f) 0x19) ∧
      (16 ≤ f.vd.toNat → no (.vcmpeq g f) 0x10 ∧ no (.vcmpne g f) 0x11 ∧ no (.vcmplt g f) 0x12 ∧ no (.vcmple g f) 0x13 ∧
        no (.vcmpun g f) 0x14)) ∧
    (∀ f : VfFmt, float = false ∨ f.low ≠ 0 → ∀ x ∈ ([(.vfma g f, 0), (.vfms g f, 1), (.vnfma g f, 2)] : List (Instr × Nat)),
      refuses (vUses (f.sc = 1) f.vb) x.1 (encVf x.2 f)) ∧
    (∀ f : VmFmt, f.mode = 3 ∨ f.low ≠ 0 ∨ (f.mode = 0 ∧ f.sb ≠ 0) ∨ 1024 / 2 ^ f.ew.toNat < c.vec.vl ∨ (f.mode = 2 ∧ 256 < c.vec.vl) →
      let u : Uses := { plain (if f.mode = 1 then [f.sa, f.sb] else [f.sa]) with mem := true }
      refuses u (.vld g f) (encVm 0 f) ∧ refuses u (.vst g f) (encVm 1 f)) ∧
    (∀ f : VcFmt, (f.src = 0xF ∨ f.dst = 0xF → refuses Uses.none' (.vcvt g f) (encVc f)) ∧
      ∀ a b : Elem, Elem.ofCode f.src.toNat = some a → Elem.ofCode f.dst.toNat = some b →
        let hi := max a.width b.width
        let lo := min a.width b.width
        8192 / hi < c.vec.vl ∨ (hi + lo - 1) / lo ≤ f.part.toNat → refuses Uses.none' (.vcvt g f) (encVc f)) ∧
    (∀ f : VqFmt, let k := f.fmt.toNat
      c.vec.vt ≠ 1 ∨ 256 < c.vec.vl ∨ k ∉ [5, 6, 7, 8, 9, 0xB] ∨ f.low ≠ 0 ∨
          (if k = 9 then 7 else if k = 7 ∨ k = 8 then 5 else 3) < f.part.toNat → refuses Uses.none' (.vbq g f) (encVq f)) ∧
    (∀ f : VsFmt,
      let no (u : Uses) (i : Instr) (fn : Nat) : Prop := refuses u i (encVs fn f)
      let sb := (c.pil.readS f.b).toNat
      let big : Prop := 16 ≤ f.d.toNat ∨ 16 ≤ f.a.toNat ∨ 16 ≤ f.b.toNat
      (f.mp ≠ 0 ∨ f.b.toNat ∉ [0, 1, 2, 3, 0xA, 0xB, 0xD, 0xE] → no (usesS [f.a] f.d 3) (.vsetl g f) 0x00) ∧
      (f.mp ≠ 0 ∨ f.a ≠ 0 ∨ f.b ≠ 0 → no (usesS [] f.d 3) (.vgetl g f) 0x01) ∧
      ((if c.vec.vt = 0 then 128 else 256) ≤ sb → no (plain [f.b]) (.vredsum g f) 0x08) ∧
      (most ≤ sb → no (plain [f.b]) (.vredmax g f) 0x09 ∧ no (plain [f.b]) (.vredmin g f) 0x0A) ∧
      (f.mp ≠ 0 ∨ most ≤ sb → no { plain [f.b] with dst := some (float, f.d), lat := 3 } (.vmvs g f) 0x0C ∧
        no (if float then { plain [f.b] with w := [f.a] } else plain [f.a, f.b]) (.vmvv g f) 0x0D) ∧
      (f.b ≠ 0 → no (vUses True f.a) (.vbcast g f) 0x0E) ∧
      (f.a ≠ 0 ∨ f.b ≠ 0 ∨ float = true → no Uses.none' (.viota g f) 0x0F) ∧
      (f.d ≠ 0 ∨ f.b ≠ 0 ∨ f.mp ≠ 0 → no Uses.none' (.vfeed g f) 0x20) ∧
      (f.mp ≠ 0 → no (plain [f.b]) (.vorb g f) 0x21) ∧
      (f.d ≠ 0 ∨ f.a ≠ 0 ∨ f.b ≠ 0 ∨ f.mp ≠ 0 → no Uses.none' (.vsync g f) 0x28) ∧
      (f.mp ≠ 0 ∨ big → no Uses.none' (.mand g f) 0x30 ∧ no Uses.none' (.mor g f) 0x31 ∧ no Uses.none' (.mxor g f) 0x32 ∧
        no Uses.none' (.mandn g f) 0x33) ∧
      (f.mp ≠ 0 ∨ f.b ≠ 0 ∨ 16 ≤ f.a.toNat → no (usesS [] f.d 3) (.mcnt g f) 0x34 ∧ no (usesS [] f.d 3) (.mfirst g f) 0x35))

/-- R225 to R232: an exception begins in its cc 0, which changes no register, status or store, and lets the handler's first instruction issue 14 cc
later, or 6 cc after the window stores before it are visible. At the end of cc 1 it saves what comes to s1 and s2 (log 49), the status, the cause
and the address in six doublewords below the stack pointer of its level, written in cc 3 to 8; level, ceiling and masks change, s2 is on its way to
the frame, and the pilot goes to the vector: at supervisor level through the supervisor's table, or, for a delegated exception of user level, at
user level, on s2, through the user's. The vector line ends it. With nothing on its way to s1 and s2 what is saved is what they hold. -/
def Obligations.ExceptionEntry : Prop :=
  (∀ (s : State) (g : CellId) (t : Trap), s.takeTrap g t = s.updCell g fun c => c.trap t s.clk.cc) ∧
  (
    ∀ (c : Cell) (t : Trap) (now : Nat), c.exc.indf = false →
      let d := c.trap t now
      let settled := c.windowSettled now
      d.exc = c.exc ∧ d.fp = c.fp ∧ d.ls = c.ls ∧ d.win = c.win ∧ d.slice = c.slice ∧ d.stores = c.stores ∧ d.pil.pc = c.pil.pc ∧
        (∀ r, d.pil.readS r = c.pil.readS r) ∧ (∀ r, d.pil.readW r = c.pil.readW r) ∧ d.pil.wbs = c.pil.wbs ∧ d.pil.rep = none ∧
        d.pil.next = max (now + 14) (settled + 6) ∧
        d.pil.seq = some { step := .enter t (c.exc.delegated t.code) none, at' := now + 1, insn := t.insn, since := now,
                           settled := settled }) ∧
  (
    ∀ (g : CellId) (c : Cell) (q : PilSeq) (t : Trap) (stay : Bool) (now : Nat), c.pil.seq = some q → q.step = .enter t stay none →
      q.at' < now → c.ls.bad = [] →
      let x := if stay = true ∨ c.exc.pl = true then c.pil.coming 2 else c.exc.ssp
      pushValid x = true →
        let d := c.seqStep g now
        let at0 := q.at' - 1
        let f := x.toNat - 48
        let dws := [t.rpc, w64 c.exc.stat, t.word, t.addr, c.pil.coming 2, c.pil.coming 1]
        d.exc.pl = !stay ∧ d.exc.ceil = !stay ∧ d.exc.im = !stay ∧ d.exc.pim = c.exc.im ∧ d.exc.indf = c.exc.indf ∧
          d.exc.cause = t.word ∧ d.exc.addr = t.addr ∧ d.exc.guardEnd = none ∧
          d.pil.pc = BitVec.ofNat 64 (0x100000 + (if stay then c.exc.ub else c.exc.vb).toNat * 0x400 + 16 * t.code) ∧
          d.stores = c.stores ++ (List.range 6).map (fun k =>
            { by' := .pilot, store := .localStore, off := f + 8 * k, bytes := leBytes (dws.getD k 0).toNat 8, vis := at0 + 3 + k,
              since := at0 }) ∧
          d.pil.seq = some { q with step := .line, at' := max (q.at' + 7) q.settled } ∧
          d.pil.wbs = c.pil.wbs.filter (fun w => !w.ofS 2) ++
            [{ wide := false, reg := 2, val := BitVec.ofNat 128 f, due := at0 + 8, bad := false, load := false }] ∧
          (∀ r, d.pil.readS r = c.pil.readS r) ∧ (∀ r, d.pil.readW r = c.pil.readW r) ∧ d.fp = c.fp ∧ d.ls = c.ls ∧ d.win = c.win ∧
          d.slice = c.slice) ∧
  (∀ (g : CellId) (c : Cell) (q : PilSeq) (now : Nat), c.pil.seq = some q → q.step = .line → q.at' < now → c.win.bad = [] →
    c.win.soft = [] →
      let d := c.seqStep g now
      d.pil.seq = none ∧ d.exc = c.exc ∧ d.stores = c.stores ∧ d.pil.pc = c.pil.pc ∧ (∀ r, d.pil.readS r = c.pil.readS r) ∧
        ∀ a, d.win.read a = c.win.read a) ∧
  ∀ (p : Pilot) (r : BitVec 5), p.wbs = [] → p.coming r = p.readS r

/-- R241 to R244: an entry whose push is invalid is a double fault: code 0x3F with the original code in the cause; the frame is written at 0x3FFD0
and the pilot goes to the supervisor's vector; at the end of cc 2 the original code and stack pointer are kept, INDF is set and supervisor level
entered with interrupts masked. A fault while INDF is set resets the cell with the reason TRIPLE. -/
def Obligations.DoubleAndTripleFault : Prop :=
  (
    ∀ (g : CellId) (c : Cell) (q : PilSeq) (t : Trap) (stay : Bool) (gate : Option (Word64 × Word64)) (now : Nat), c.pil.seq = some q →
      q.step = .enter t stay gate → q.at' < now → c.ls.bad = [] → c.exc.indf = false →
      let x := if stay = true ∨ c.exc.pl = true then c.pil.coming 2 else c.exc.ssp
      pushValid x = false →
        let d := c.seqStep g now
        let at0 := q.at' - 1
        let dws := [t.rpc, w64 c.exc.stat, { t with code := 0x3F, info := t.code : Trap }.word, t.addr, c.pil.coming 2, c.pil.coming 1]
        d.pil.seq = some { q with step := .double t x, at' := at0 + 2 } ∧
          d.stores = c.stores ++ (List.range 6).map (fun k =>
            { by' := .pilot, store := .localStore, off := 0x3FFD0 + 8 * k, bytes := leBytes (dws.getD k 0).toNat 8, vis := at0 + 3 + k,
              since := at0 }) ∧
          d.pil.wbs = c.pil.wbs.filter (fun w => !w.ofS 2) ++
            [{ wide := false, reg := 2, val := 0x3FFD0, due := at0 + 8, bad := false, load := false }] ∧
          d.pil.pc = BitVec.ofNat 64 (0x100000 + c.exc.vb.toNat * 0x400 + 16 * 0x3F) ∧
          ∀ r, d.pil.readS r = c.pil.readS r) ∧
  (
    ∀ (g : CellId) (c : Cell) (q : PilSeq) (t : Trap) (x : Word64) (now : Nat), c.pil.seq = some q → q.step = .double t x → q.at' < now →
      c.exc.indf = false →
        let d := c.seqStep g now
        d.exc = { c.exc with pl := true, ceil := true, im := true, cause := { t with code := 0x3F, info := t.code : Trap }.word,
                             dfOrig := BitVec.ofNat 8 t.code, indf := true, dfsp := x } ∧
          d.pil.seq = some { q with step := .line, at' := max (q.at' + 6) q.settled } ∧ d.stores = c.stores ∧
          ∀ r, d.pil.readS r = c.pil.readS r) ∧
  (
    ∀ (c : Cell) (t : Trap) (now : Nat), c.exc.indf = true → c.id.inReset = none → isInterrupt t.code = false → t.code ≠ 0x10 →
      let d := c.trap t now
      d.id.inReset = some 1 ∧ d.pil.mode = .idle ∧ d.pil.seq = none ∧ d.exc = c.exc ∧ d.stores = c.stores)

/-- R224, R232, R243: a pending and enabled interrupt is taken at the instruction boundary: of several the one of the lowest code, with the address
of the next instruction. -/
def Obligations.InterruptTakenAtBoundary : Prop :=
  ∀ (g : CellId) (s : State) (code : Nat),
    let c := s.cell g
    s.live g = true → c.pil.mode ≠ .idle → c.pil.seq = none → c.vec.vorb = none → c.pil.rep = none → c.pil.next ≤ s.clk.cc →
    c.exc.im = false → c.exc.indf = false → c.exc.guardEnd = none →
    ((c.exc.mchk = true ∧ code = 0x20) ∨ (c.exc.mchk = false ∧ c.exc.hubreq = true ∧ code = 0x21) ∨
      (c.exc.mchk = false ∧ c.exc.hubreq = false ∧ c.exc.pabort = true ∧ code = 0x22) ∨
      (c.exc.mchk = false ∧ c.exc.hubreq = false ∧ c.exc.pabort = false ∧ c.exc.mbox = true ∧ c.exc.ienMbox = true ∧ code = 0x23)) →
      exec (.interruptEntry g) s = .next (s.takeTrap g { code := code, wr := false, half := false, info := 0, insn := 0, addr := 0,
                                                          rpc := c.pil.pc })

/-- R233 to R237: GATE has the two doublewords of its descriptor read in the two cc after its issue, and nothing else changes. At the end of the
second, one that cannot be used takes GATE_BAD, one whose argument checks fail GATE_ARG with the number of the check, and else its entry begins with
that cc as its cycle 0: at supervisor level if SUP is 1 or the caller had it, else at user level. The entry is that of an exception (the frame holds
the address of the next word), but that the pilot goes to the entry point of the descriptor and s1 becomes the address of the next word. -/
def Obligations.GateEntry : Prop :=
  (
    ∀ (g : CellId) (f : KFmt) (s : State), f.rd = 0 → f.ra = 0 →
      let c := s.cell g
      let n := f.imm.toNat
      let o := c.exc.gb.toNat * 16 + 16 * n
      s.canIssue g { Uses.none' with s := (List.range 32).map (BitVec.ofNat 5) } = true → n < c.exc.gcount.toNat → o + 16 ≤ 0x40000 →
        ∃ t, exec (.gate g f) s = .next t ∧
          let d := t.cell g
          d.pil.seq = some { step := .gate n, at' := s.clk.cc + 2, insn := encK 0b101111 0x01 f, since := s.clk.cc, settled := 0,
                             reads := [{ cc := s.clk.cc + 1, src := .own .window o 8, addr := 0x100000 + o },
                                       { cc := s.clk.cc + 2, src := .own .window (o + 8) 8, addr := 0x100000 + o + 8 }] } ∧
            d.pil.next = s.clk.cc + 16 ∧ d.exc = c.exc ∧ (∀ r, d.pil.readS r = c.pil.readS r) ∧ d.fp = c.fp ∧ d.ls = c.ls ∧
            d.win = c.win ∧ d.stores = c.stores ∧ s.sameBut t g) ∧
  (
    ∀ (g : CellId) (s : State) (q : PilSeq) (o a : Nat) (rest : List LoadRead), (s.cell g).pil.seq = some q →
      q.reads = { cc := s.clk.cc, src := .own .window o 8, addr := a } :: rest → (∀ x ∈ rest, s.clk.cc < x.cc) → (s.cell g).stores = [] →
      (s.cell g).win.bad = [] → (s.cell g).win.soft = [] →
        s.seqReads g = s.updCell g fun c =>
          c.setSeq (some { q with reads := rest, got := q.got ++ c.win.readBytes o 8 })) ∧
  (
    ∀ (g : CellId) (c : Cell) (q : PilSeq) (n now : Nat), c.pil.seq = some q → q.step = .gate n → q.at' < now → q.bad = false →
      let d0 := leNat (q.got.take 8)
      let d1 := leNat (q.got.drop 8)
      let trap (code info : Nat) (rpc : Word64) : Trap :=
        { code := code, wr := false, half := false, info := info, insn := q.insn, addr := 0, rpc := rpc }
      let d := c.seqStep g now
      let ok0 := gateCheck g c.pil (d1 % 2 ^ 32)
      let ok1 := gateCheck g c.pil (d1 / 2 ^ 32 % 2 ^ 32)
      let settled := c.windowSettled q.at'
      (c.exc.gateBad n d0 d1 = true → d = c.trap (trap 0x07 n c.pil.pc) q.at') ∧
      (c.exc.gateBad n d0 d1 = false → ok0 = false → d = c.trap (trap 0x08 0 c.pil.pc) q.at') ∧
      (c.exc.gateBad n d0 d1 = false → ok0 = true → ok1 = false → d = c.trap (trap 0x08 1 c.pil.pc) q.at') ∧
      (c.exc.gateBad n d0 d1 = false → ok0 = true → ok1 = true →
        d.pil.seq = some { step := .enter (trap 0x10 n (c.pil.pc + 4)) (!(c.exc.pl || d0 / 2 ^ 19 % 2 == 1))
                             (some (BitVec.ofNat 64 (0x100000 + 4 * (d0 / 4 % 2 ^ 16)), c.pil.pc + 4)),
                           at' := q.at' + 1, insn := q.insn, since := q.at', settled := settled } ∧
          d.pil.next = max (q.at' + 14) (settled + 6) ∧ d.exc = c.exc ∧ (∀ r, d.pil.readS r = c.pil.readS r) ∧ d.stores = c.stores)) ∧
  (
    ∀ (g : CellId) (c : Cell) (q : PilSeq) (t : Trap) (stay : Bool) (entry link : Word64) (now : Nat), c.pil.seq = some q →
      q.step = .enter t stay (some (entry, link)) → q.at' < now → c.ls.bad = [] →
      let x := if stay = true ∨ c.exc.pl = true then c.pil.coming 2 else c.exc.ssp
      pushValid x = true →
        let d := c.seqStep g now
        let at0 := q.at' - 1
        let f := x.toNat - 48
        let dws := [t.rpc, w64 c.exc.stat, t.word, t.addr, c.pil.coming 2, c.pil.coming 1]
        d.pil.pc = entry ∧ d.pil.readS 1 = link ∧ d.exc.pl = !stay ∧ d.exc.ceil = !stay ∧ d.exc.im = !stay ∧ d.exc.pim = c.exc.im ∧
          d.exc.cause = t.word ∧
          d.stores = c.stores ++ (List.range 6).map (fun k =>
            { by' := .pilot, store := .localStore, off := f + 8 * k, bytes := leBytes (dws.getD k 0).toNat 8, vis := at0 + 3 + k,
              since := at0 }) ∧
          d.pil.wbs = c.pil.wbs.filter (fun w => !w.ofS 2) ++
            [{ wide := false, reg := 2, val := BitVec.ofNat 128 f, due := at0 + 8, bad := false, load := false }] ∧
          (∀ r, r ≠ 1 → d.pil.readS r = c.pil.readS r) ∧ d.fp = c.fp ∧ d.ls = c.ls)

/-- R238 to R240: a return has the six doublewords of the frame at s2 read in cc 1 to 6, and nothing else changes until the end of cc 7, which
restores PC, level, ceiling, masks, s2 and s1 from a frame that the level may use; one that it may not takes PRIV_RETURN, with the frame's address.
The next instruction issues in cc 13, or 6 cc after the window stores before it are visible. -/
def Obligations.ReturnRestoresFrame : Prop :=
  (
    ∀ (g : CellId) (f : KFmt) (s : State), f.rd = 0 → f.ra = 0 → f.imm = 0 →
      let c := s.cell g
      let x := (c.pil.readS 2).toNat
      let settled := c.windowSettled s.clk.cc
      s.canIssue g { Uses.none' with s := [1, 2] } = true → c.exc.pendingCode = none → x % 8 = 0 →
      x + 48 ≤ (if c.exc.pl then 0x40000 else 0x3F000) →
        ∃ t, exec (.retx g f) s = .next t ∧
          let d := t.cell g
          d.pil.seq = some { step := .pop x, at' := s.clk.cc + 7, insn := encK 0b101111 0x02 f, since := s.clk.cc, settled := settled,
                             reads := (List.range 6).map fun k => { cc := s.clk.cc + 1 + k, src := .own .localStore (x + 8 * k) 8,
                                                                    addr := x + 8 * k } } ∧
            d.pil.next = max (s.clk.cc + 13) (settled + 6) ∧ d.exc = c.exc ∧ (∀ r, d.pil.readS r = c.pil.readS r) ∧ d.fp = c.fp ∧
            d.ls = c.ls ∧ d.stores = c.stores ∧ s.sameBut t g) ∧
  (
    ∀ (g : CellId) (s : State) (q : PilSeq) (o a : Nat) (rest : List LoadRead), (s.cell g).pil.seq = some q →
      q.reads = { cc := s.clk.cc, src := .own .localStore o 8, addr := a } :: rest → (∀ x ∈ rest, s.clk.cc < x.cc) →
      (s.cell g).stores = [] → (s.cell g).ls.bad = [] → (s.cell g).ls.soft = [] →
        s.seqReads g = s.updCell g fun c =>
          c.setSeq (some { q with reads := rest, got := q.got ++ c.ls.readBytes o 8 })) ∧
  (
    ∀ (g : CellId) (c : Cell) (q : PilSeq) (x now : Nat), c.pil.seq = some q → q.step = .pop x → q.at' < now → q.bad = false →
      let dw (k : Nat) : Nat := leNat ((q.got.drop (8 * k)).take 8)
      let d := c.seqStep g now
      ((c.exc.ceil = true ∨ dw 1 % 4 = 0) →
        d.pil.pc = BitVec.ofNat 64 (dw 0) ∧ d.pil.readS 2 = BitVec.ofNat 64 (dw 4) ∧ d.pil.readS 1 = BitVec.ofNat 64 (dw 5) ∧
          d.exc.pl = (dw 1 % 2 == 1) ∧ d.exc.ceil = (dw 1 / 2 % 2 == 1) ∧ d.exc.im = (dw 1 / 4 % 2 == 1 && dw 1 % 2 == 1) ∧
          d.exc.pim = (dw 1 / 8 % 2 == 1) ∧ (∀ r, r ≠ 1 → r ≠ 2 → d.pil.readS r = c.pil.readS r) ∧ d.pil.seq = none ∧ d.ls = c.ls ∧
          d.fp = c.fp ∧ d.stores = c.stores) ∧
      (c.exc.ceil = false → dw 1 % 4 ≠ 0 →
        d = c.trap { code := 0x09, wr := false, half := false, info := 0, insn := q.insn, addr := BitVec.ofNat 64 x, rpc := c.pil.pc }
          q.at'))


/-! Pilot: block-repeat, landing, ordering, remote requests, engine commands (R168, R170, R183 to R199, R210, R277, R297 to R300). -/

/-- R183 to R185, R215: a repeat with s3 = 0 ends at once, the stopping ones with reason 0 in rd; else it is under way, its PC kept, and its first
iteration is due S cc later. R183, R184, R186, R215: one iteration of a repeat in the local store, its units not split: it stops on its condition
with reason 1 and nothing moved; else s3 counts down, s4 and s5 move on, a copy or fill stores its unit, a checksum adds its big-endian unit with
end-around carry, and the last one ends the repeat with reason 0. No other register changes. -/
def Obligations.RepeatResults : Prop :=
  (
    ∀ (g : CellId) (f : RpFmt) (s : State),
      ∀ x ∈ ([(.rcopy g f, 0), (.rfill g f, 1), (.rscan g f, 2), (.rscann g f, 3), (.rcmp g f, 4), (.rspan g f, 5), (.rbreak g f, 6),
          (.rcsum g f, 7)] : List (Instr × BitVec 3)),
        let span := x.2 = 5 ∨ x.2 = 6
        f.low = 0 → (x.2 = 0 ∨ x.2 = 1 → f.rd = 0) → (x.2 ≠ 1 ∧ x.2 ≠ 2 ∧ x.2 ≠ 3 → f.ra = 0) → (¬ span → f.rb = 0) →
        (span → f.ew = 0 ∧ f.rb.toNat % 2 = 0) → (x.2 = 7 → f.ew = 1) →
        let uses := [3] ++ (if x.2 ≠ 1 then [4] else []) ++ (if x.2 = 0 ∨ x.2 = 1 ∨ x.2 = 4 then [5] else []) ++
          (if x.2 = 1 ∨ x.2 = 2 ∨ x.2 = 3 then [f.ra] else []) ++ (if x.2 = 7 then [f.rd] else [])
        s.canIssue g { s := uses, w := if x.2 = 5 ∨ x.2 = 6 then [f.rb, f.rb + 1] else [],
                       dst := if x.2 = 0 ∨ x.2 = 1 then none else some (false, f.rd), lat := 1, unitFree := 0, mem := true } = true →
          ((s.cell g).pil.readS 3 = 0 →
            exec x.1 s = .next ((if 2 ≤ x.2.toNat ∧ x.2.toNat ≤ 6 then s.putS g f.rd 0 else s).retired g)) ∧
          ((s.cell g).pil.readS 3 ≠ 0 →
            let r : RepState := { op := x.2, rd := f.rd, ra := f.ra, rb := f.rb, size := 2 ^ f.ew.toNat, insn := encRp x.2.toNat f,
                                  next := s.clk.cc + s.repStart g x.2 }
            exec x.1 s = .next ((s.updCell g fun c =>
              { c.span 0 (s.clk.cc + 1) r.next 2 with pil := { c.pil with rep := some r } }).updCell g fun c =>
                c.retire s.clk.cc 1 (some (s.cell g).pil.pc) 0))) ∧
  (
    ∀ (g : CellId) (s : State) (r : RepState),
      let c := s.cell g
      let p := c.pil
      let op := r.op.toNat
      let a4 := (p.readS 4).toNat
      let a5 := (p.readS 5).toNat
      let n := r.size
      let inLs (a : Nat) : Prop := a + n ≤ ownSize .localStore c.exc.pl ∧ a % 8 + n ≤ 8
      c.pil.rep = some r → r.waits = none → s.live g = true → r.next ≤ s.clk.cc → c.exc.takeable s.clk.cc = none → c.stores = [] →
      c.ls.bad = [] → c.ls.soft = [] → p.remotes = [] → (n = 1 ∨ n = 2 ∨ n = 4 ∨ n = 8) → (op = 5 ∨ op = 6 → n = 1) →
      (op = 7 → n = 2) → (op ≠ 1 → inLs a4) →
      (op = 0 ∨ op = 1 ∨ op = 4 → inLs a5) →
        let x := c.ls.readN a4 n
        let key := (p.readS r.ra).toNat % 2 ^ (8 * n)
        let cls := ((p.readW (r.rb + 1)).toNat * 2 ^ 128 + (p.readW r.rb).toNat).testBit x
        let stop : Prop := (op = 2 ∧ x = key) ∨ (op = 3 ∧ x ≠ key) ∨ (op = 4 ∧ x ≠ c.ls.readN a5 n) ∨ (op = 5 ∧ cls = false) ∨
          (op = 6 ∧ cls = true)
        let be := (c.ls.read a4).toNat * 256 + (c.ls.read (a4 + 1)).toNat + (p.readS r.rd).toNat % 2 ^ 16
        let q0 := if op = 7 then p.writeS r.rd (BitVec.ofNat 64 (if be < 2 ^ 16 then be else be - 0xFFFF)) else p
        let q1 := if op = 1 then q0 else q0.writeS 4 (q0.readS 4 + BitVec.ofNat 64 n)
        let q2 := if op = 0 ∨ op = 1 ∨ op = 4 then q1.writeS 5 (q1.readS 5 + BitVec.ofNat 64 n) else q1
        let q3 := q2.writeS 3 (q2.readS 3 - 1)
        let ends (q : Pilot) (why : Word64) : Pilot := if 2 ≤ op ∧ op ≤ 6 then q.writeS r.rd why else q
        ∃ t, exec (.repIteration g) s = .next t ∧ s.sameBut t g ∧
          let d := t.cell g
          d.ls = c.ls ∧ (∀ w, d.pil.readW w = p.readW w) ∧
          (stop → (∀ y, d.pil.readS y = (ends p 1).readS y) ∧ d.stores = [] ∧ d.pil.rep = none ∧ d.pil.pc = p.pc + 4 ∧
            d.pil.next = s.clk.cc + 2) ∧
          (¬ stop →
            d.stores = (if op = 0 ∨ op = 1 then
              [{ by' := .pilot, store := .localStore, off := a5, since := s.clk.cc,
                 bytes := if op = 0 then c.ls.readBytes a4 n else leBytes (p.readS r.ra).toNat n, vis := s.clk.cc + 1 }] else []) ∧
            (q3.readS 3 ≠ 0 → (∀ y, d.pil.readS y = q3.readS y) ∧ d.pil.pc = p.pc ∧
              d.pil.rep = some { r with next := s.clk.cc + if op = 0 ∨ op = 4 then 2 else 1 }) ∧
            (q3.readS 3 = 0 → (∀ y, d.pil.readS y = (ends q3 0).readS y) ∧ d.pil.rep = none ∧ d.pil.pc = p.pc + 4 ∧
              d.pil.next = s.clk.cc + if op = 0 then 3 else 2)))

/-- R147, R207: the writeback of a result that is due lands it at the end of its cc, and one cc has passed: a pilot result in its register, all
other registers as before; a vector instruction's destinations and its flags. -/
def Obligations.ResultsLand : Prop :=
  ∀ (s : State) (g : CellId) (c : Cell), s.cells = [(g.toNat, c)] → s.live g = true → c.stores = [] → c.regs = [] →
    c.pil.micros = [] → c.pil.seq = none → c.arr.passes = [] → s.tickHc = none →
    (∀ w : PilotWb, c.pil.wbs = [w] → c.vec.flight = [] → w.bad = false → w.due = s.clk.cc →
      ∃ t, exec (.pilotWriteback g) s = .next t ∧ t.clk.cc = s.clk.cc + 1 ∧ (t.cell g).pil.wbs = [] ∧
        (∀ r, (t.cell g).pil.readS r = if w.wide = false ∧ r = w.reg ∧ r ≠ 0 then w.val.setWidth 64 else c.pil.readS r) ∧
        (∀ r, (t.cell g).pil.readW r = if w.wide = true ∧ r = w.reg then w.val else c.pil.readW r) ∧ (t.cell g).ls = c.ls ∧
        (t.cell g).exc = c.exc) ∧
    (∀ x : VecFlight, c.vec.flight = [x] → c.pil.wbs = [] → x.due = s.clk.cc →
      ∃ t, exec (.vectorWriteback g none) s = .next t ∧ t.clk.cc = s.clk.cc + 1 ∧ (t.cell g).vec.flight = [] ∧
        (t.cell g).vec.v = (x.writes.foldl Vec.put c.vec).v ∧ (t.cell g).vec.m = (x.writes.foldl Vec.put c.vec).m ∧
        (t.cell g).fp.vec = c.fp.vec ||| x.flags ∧ (∀ r, (t.cell g).pil.readS r = c.pil.readS r) ∧ (t.cell g).ls = c.ls)

/-- R170, R260, R261, R297 to R300, R405: LDA loads its doubleword, as LD does, and holds later accesses until it has returned; STREL, after its one
cc, stores, at chain scope a cc later; FENCE lets accesses go on in the next cc, at chain scope in the one after it. Both wait where a load or store
to another home is outstanding, at module and chain scope wherever its home is, and at chain scope where a PUT has no STATUS. ACQR does nothing at
cell and tile scope, and at wider scope starts the invalidation, of every line or of those that its range meets, whose completion leaves none of the
tile's lines that it covers, and lets the held accesses go on. -/
def Obligations.OrderingResults : Prop :=
  ∀ (g : CellId) (f : YFmt) (s : State) (st : OwnStore) (o : Nat),
    let c := s.cell g
    let a := (c.pil.readS f.ra + f.imm.signExtend 64 * 8).toNat
    let lat := match st with | .localStore => 3 | .window => 4 | .slice => 7
    let vis := match st with | .localStore => 1 | .window => 2 | .slice => 4
    let ul : Uses := { s := [f.ra], w := [], dst := some (false, f.rd), lat := 0, unitFree := 0, mem := true }
    let us : Uses := { s := [f.ra, f.rd], w := [], dst := none, lat := 1, unitFree := 0, mem := true }
    let more := if f.scope = 3 then 1 else 0
    let go := s.clk.cc + 1 + more
    (a = ownAddr g st o → o % 8 = 0 → o + 8 ≤ ownSize st c.exc.pl → s.canIssue g ul = true → s.loadPort g ul a 8 ≤ s.clk.cc →
      exec (.lda g f) s = .next (((s.loading g st (loadOf false f.rd .zero st o 8 a lat s.clk.cc)).updPil g
        fun p => { p with memFree := max p.memFree (s.clk.cc + lat) }).retired g)) ∧
    (let s1 := s.waitFor g go 4
     let c1 := s1.cell g
     s.canIssue g us = true → c.settledAt ≤ go → s.memPort g a ≤ go → s1.fetches g = true → s1.clk.cc = go →
     (c1.pil.remotes = [] → (f.scope = 3 → s1.putsOut g = false) → (c1.pil.readS f.ra + f.imm.signExtend 64 * 8).toNat = ownAddr g st o →
      o % 8 = 0 → o + 8 ≤ ownSize st c1.exc.pl → (st = .window → c1.exc.pl = true) →
       exec (.strel g f) s = .next ((s1.updCell g fun c =>
         { c with stores := c.stores ++ [{ by' := .pilot, store := st, off := o, bytes := leBytes (c.pil.readS f.rd).toNat 8,
                                           vis := go + vis, since := go }]
                  pil := c.pil.usePort st go 1 }).retired g)) ∧
     ((2 ≤ f.scope.toNat ∧ c1.pil.remotes ≠ []) ∨ (f.scope = 3 ∧ s1.putsOut g = true) →
       exec (.strel g f) s = .next (s1.pilotWhy g 4))) ∧
    (f.rd = 0 → f.ra = 0 → f.imm = 0 → s.canIssue g { Uses.none' with mem := true } = true → c.settledAt ≤ s.clk.cc →
      (c.pil.remotes = [] → (f.scope = 3 → s.putsOut g = false) →
        exec (.fence g f) s = .next ((s.updPil g fun p => { p with memFree := max p.memFree go }).retired g)) ∧
      ((2 ≤ f.scope.toNat ∧ c.pil.remotes ≠ []) ∨ (f.scope = 3 ∧ s.putsOut g = true) →
        exec (.fence g f) s = .next (s.pilotWhy g 4))) ∧
    (f.imm = 0 → s.canIssue g us = true → c.pil.loadsDone ≤ s.clk.cc → c.pil.remotes = [] →
      let len := (c.pil.readS f.rd).toNat
      let lo := (c.pil.readS f.ra).toNat / 256
      let hi := ((c.pil.readS f.ra).toNat + len - 1) / 256 + 1
      (f.scope.toNat < 2 → exec (.acqr g f) s = .next (s.retired g)) ∧
      (2 ≤ f.scope.toNat →
        (f.rd = 0 → exec (.acqr g f) s = .next ((s.updPil g fun p =>
          { p with acqr := some { whole := true, lo := 0, hi := 0, due := s.clk.cc + 8204 }, hold := true }).retired g)) ∧
        (f.rd ≠ 0 → len = 0 → exec (.acqr g f) s = .next (s.retired g)) ∧
        (f.rd ≠ 0 → len ≠ 0 → exec (.acqr g f) s = .next ((s.updPil g fun p =>
          { p with acqr := some { whole := false, lo := lo, hi := hi, due := s.clk.cc + 12 + (hi - lo) }, hold := true }).retired g)))) ∧
    (∀ r : AcqrState, s.cells = [(g.toNat, c)] → c.pil.acqr = some r → r.pos = 0 → r.places ≤ r.due → s.live g = true → r.due ≤ s.clk.cc →
      ∃ t, exec (.acqrComplete g) s = .next t ∧ (t.cell g).pil.acqr = none ∧ (t.cell g).pil.hold = false ∧ t.hbm.mem = s.hbm.mem ∧
        ∀ l ∈ (s.hbm.cache (tileOf g)).lines,
          (l ∈ (t.hbm.cache (tileOf g)).lines ↔ ¬ (r.whole = true ∨ (r.lo ≤ 2 ^ 32 + l.num ∧ 2 ^ 32 + l.num < r.hi))))

/-- R210, R211, R256, R272, R442, R443: a remote request reaches its home, HBM or another cell's slice: a store writes exactly its bytes; a load
that no cached line serves samples memory; a fenced pseudo-channel refuses both. A performed load's response, when the time for it has come, has
brought its value into the register, or a machine check where it was refused; a performed store's acknowledgement ends it, with a machine check
where the store was refused. A request that gets no answer ends, when its loss is told or, with a TIMEOUT record, after 20 µs (36,000 hc): a store
counts as acknowledged, and a load brings a machine check. -/
def Obligations.RemoteAccessResults : Prop :=
  (
    ∀ (g : CellId) (s : State) (r : Remote), (s.cell g).pil.remotes = [r] → s.live g = true → s.cellDown g = false → r.performed = false →
      r.lost = false → r.cc ≤ s.clk.cc →
      let sent : Remote := { r with performed := true, back := s.backAt g r }
      (∀ o, place s.hbmBytes g r.addr = .hbm o → s.hbm.fencedAt o = false → s.hbm.mem.bad = [] →
        (r.load = false → ∃ t, exec (.remoteRequest g r.req) s = .next t ∧ (t.cell g).pil.remotes = [sent] ∧
          ∀ a, t.hbm.mem.read a = if o ≤ a ∧ a < o + r.bytes.length then r.bytes.getD (a - o) 0 else s.hbm.mem.read a) ∧
        (r.load = true → (s.hbm.cache (tileOf g)).find (o / 256) = none → ∃ t, exec (.remoteRequest g r.req) s = .next t ∧
          (∀ a, t.hbm.mem.read a = s.hbm.mem.read a) ∧ (t.cell g).pil.remotes = [{ sent with got := some (s.hbm.mem.readBytes o r.len) }])) ∧
      (∀ o, place s.hbmBytes g r.addr = .hbm o → s.hbm.fencedAt o = true → r.got = none → ∃ t, exec (.remoteRequest g r.req) s = .next t ∧
        t.hbm.mem = s.hbm.mem ∧ (t.cell g).pil.remotes = [if r.load then sent else { sent with err := true }]) ∧
      (∀ h o, place s.hbmBytes g r.addr = .slice h o → h ≠ g → s.cellDown h = false → (s.cell h).slice.bad = [] → (s.cell h).stores = [] →
        (r.load = false → ∃ t, exec (.remoteRequest g r.req) s = .next t ∧ (t.cell g).pil.remotes = [sent] ∧
          ∀ a, (t.cell h).slice.read a =
            if o ≤ a ∧ a < o + r.bytes.length then r.bytes.getD (a - o) 0 else (s.cell h).slice.read a) ∧
        (r.load = true → ∃ t, exec (.remoteRequest g r.req) s = .next t ∧ (∀ a, (t.cell h).slice.read a = (s.cell h).slice.read a) ∧
          (t.cell g).pil.remotes = [{ sent with got := some ((s.cell h).slice.readBytes o r.len) }]))) ∧
  (
    ∀ (g : CellId) (s : State) (r : Remote), (s.cell g).pil.remotes = [r] → s.live g = true → r.performed = true → r.mate = none →
      r.back ≤ s.clk.cc →
      (∀ (d : LoadDest) (bs : List Byte), r.load = true → r.got = some bs → r.dest = some d →
        exec (.remoteResponse g r.req) s = .next (s.updPil g fun p =>
          ({ p with remotes := [], hold := if r.acquire then p.acqr.isSome else p.hold } : Pilot).writeReg d.wide d.reg (d.value bs))) ∧
      (r.load = false → exec (.storeAck g r.req) s = .next ((s.updPil g fun p => { p with remotes := [] }).updCell g fun c =>
        if r.err then { c with exc := { c.exc with mchk := true } } else c))) ∧
  (
    ∀ (g : CellId) (s : State) (r : Remote), (s.cell g).pil.remotes = [r] → s.live g = true → r.mate = none →
      (r.load = true → r.dest ≠ none) → 0 < s.clk.cc → (∀ w ∈ (s.cell g).pil.wbs, s.clk.cc ≤ w.due) →
      let ended (t : State) : Prop :=
        (t.cell g).pil.remotes = [] ∧ (t.cell g).exc.mchk = ((s.cell g).exc.mchk || r.load) ∧
          (t.cell g).pil.wbs = (s.cell g).pil.wbs ∧ ∀ x, (t.cell g).pil.readS x = (s.cell g).pil.readS x
      (r.load = true → r.got = none → r.performed = true → r.acquire = false → r.back ≤ s.clk.cc →
        ∃ t, exec (.remoteResponse g r.req) s = .next t ∧ ended t) ∧
      (s.hubRecs = [] → (Endpoint.cell g, r.req) ∈ s.xbar.owed →
        ∃ t, exec (.lossAck g r.req) s = .next t ∧ ended t ∧ t.xbar.owed = s.xbar.owed.erase (Endpoint.cell g, r.req)) ∧
      (∀ n, (Endpoint.cell g, r.req) ∉ s.xbar.owed → s.owedBy g r.req = some n → n < 256 →
        ∃ t, exec (.lossAck g r.req) s = .next t ∧ ended t ∧
          (t.cell (BitVec.ofNat 8 n)).router.owed = (s.cell (BitVec.ofNat 8 n)).router.owed.erase (Endpoint.cell g, r.req)) ∧
      (r.since + 36000 ≤ s.clk.hc →
        ∃ t e, exec (.requestTimeout g r.req) s = .next t ∧ ended t ∧ (t.cell g).out = (s.cell g).out ++ [.record e] ∧
          e.mech = 0x0D ∧ e.action = 0x01 ∧ e.cls = 2 ∧ e.cell = some g ∧ e.addr = BitVec.ofNat 64 r.addr))

/-- R92, R93, R188, R192 to R197, R277: APASS queues a descriptor that keeps every condition; MVISS gives the next ticket and queues the command; a
custom instruction of one arithmetic micro-op on ra and rb writes rd. -/
def Obligations.EngineCommandsIssue : Prop :=
  ∀ (g : CellId) (s : State),
    let c := s.cell g
    (∀ f : KFmt, f.rd = 0 → f.imm = 0 → s.canIssue g { Uses.none' with s := [f.ra], mem := true } = true →
      let a := (c.pil.readS f.ra).toNat
      let dw := (List.range 8).map fun i => BitVec.ofNat 64 (c.ls.readN (a + 8 * i) 8)
      let d := Desc.ofWords dw
      c.arr.passes.length < 3 → a % 64 = 0 → a + 64 ≤ ownSize .localStore c.exc.pl → c.ls.bad = [] → c.ls.soft = [] → c.stores = [] →
      descReserved dw = false → d.ok c.arr.orbit c.arr.lastIssued.toNat = true → c.arr.restart.toNat ≤ d.pidx →
        ∃ p : Pass, exec (.apass g f) s = .next ((s.updCell g fun c =>
            { c with arr := { c.arr with passes := c.arr.passes ++ [p], lastIssued := BitVec.ofNat 16 d.pidx } }).retired g) ∧
          p.dw = dw ∧ p.stage = .queued ∧ p.issue = s.clk.cc ∧ p.step = 0 ∧ p.flags = 0) ∧
    (∀ f : KFmt, f.imm = 0 → s.canIssue g { usesS [f.ra] f.rd 1 with mem := true } = true →
      let a := (c.pil.readS f.ra).toNat
      c.mov.cmds.length < 16 → c.mov.stopped = false → a % 32 = 0 → a + 32 ≤ ownSize .localStore c.exc.pl → c.ls.bad = [] →
      c.ls.soft = [] → c.stores = [] →
        let m : MovCmd := { ticket := c.mov.issued + 1, addr := a, dw := (List.range 4).map fun i => BitVec.ofNat 64 (c.ls.readN (a + 8 * i) 8),
                            user := !c.exc.pl, bad := false, from' := s.clk.cc + 4, started := false }
        exec (.mviss g f) s = .next (((s.updCell g fun c =>
          Cell.movHeld { c with mov := { c.mov with issued := c.mov.issued + 1, cmds := c.mov.cmds ++ [m] } }).putS g f.rd
            (BitVec.ofNat 64 (c.mov.issued + 1))).retired g)) ∧
    (∀ (f : CFmt) (u : Word64),
      let w := (c.uc.udt.get 0 f.entry.toNat).toNat
      let n := u.toNat
      w % 2 = 1 → (c.exc.pl = true ∨ w / 2 % 2 = 1) → w / 2 ^ 11 % 2 ^ 6 = 0 → c.uc.store.get 0 (w / 4 % 2 ^ 9) = u →
      n / 2 ^ 52 % 16 = 8 → n / 2 ^ 48 % 16 = 9 → n / 2 ^ 44 % 16 = 10 → s.canIssue g { Uses.none' with s := [f.rd, f.ra, f.rb] } = true →
      s.microWait g f [n] ≤ s.clk.cc →
      ∀ x ∈ ([(0x00, fun a _ => a), (0x01, fun a b => a + b), (0x02, fun a b => a - b), (0x03, fun a b => a &&& b), (0x04, fun a b => a ||| b),
          (0x05, fun a b => a ^^^ b), (0x06, fun a b => a &&& ~~~b), (0x08, fun a b => a <<< (b.toNat % 64)),
          (0x09, fun a b => a >>> (b.toNat % 64)), (0x1C, fun a b => if a = b then 1 else 0)] : List (Nat × (Word64 → Word64 → Word64))),
        n / 2 ^ 56 % 64 = x.1 →
          exec (.custom g f) s = .next ((s.putS g f.rd (x.2 (c.pil.readS f.ra) (c.pil.readS f.rb))).updCell g fun c =>
            c.retire s.clk.cc 1 none 1))

/-! Long-vector unit (R125 to R156). -/

/-- R59, R127, R132, R133, R147, R148: elementwise vector functions: each active element becomes the function of the elements at its place (the
second from vb or a scalar), rounded, under SR and in a format of 16 bits or less with its own draw, which every function takes; the others keep
their value; it lands after its latency with its flags. -/
def Obligations.VectorElementResults : Prop :=
  ∀ (g : CellId) (s : State),
    let c := s.cell g
    let v := c.vec
    let t := v.type
    let fl := if t = .fp64 then 6 else if t = .fp32 then 5 else 4
    let el (r : BitVec 5) (i : Nat) : Nat := elemAt (v.reg r) t.width i
    let second (r : BitVec 5) (sc : BitVec 1) (i : Nat) : Nat :=
      if sc = 1 then (if t.isFloat then (c.pil.readF r).toNat else (c.pil.readS r).toNat) % 2 ^ t.width else el r i
    let runs (i : Instr) (vd : BitVec 5) (mp : BitVec 4) (lat : Nat) (e : Nat → Rnd → FRes) : Prop :=
      let act := (List.range v.vl).filter fun i => (v.mreg mp).testBit i
      let sr := t.takesSr
      let res (i : Nat) : FRes := e i (laneRounding c.fp sr act i)
      ∃ k : VecFlight, exec i s = .next ((s.vecStarts g k (laneDraws c.fp sr act) lat).retired g) ∧ k.due = s.clk.cc + lat - 1 ∧
        k.flags = act.foldl (fun a i => a ||| (res i).flags) 0 ∧
        k.setsV vd t.width fun i => if i ∈ act then some (res i).bits else none
    let by' (ff : Rnd → FVal → FVal → FRes) (gi : Int → Int → Int) (r : Rnd) (x y : Nat) : FRes :=
      if t.isFloat then ff r (t.decodeF x) (t.decodeF y) else ⟨t.encodeI (gi (t.decodeI x) (t.decodeI y)), 0⟩
    (∀ f : VrFmt, s.canIssue g (vecUses v (f.sc == 1) f.vb) = true →
      let x := el f.va
      let y := second f.vb f.sc
      let l := if t.isFloat then fl else 2
      runs (.vadd g f) f.vd f.mp l (fun i r => by' (fun r => t.fadd r false) (· + ·) r (x i) (y i)) ∧
      runs (.vsub g f) f.vd f.mp l (fun i r => by' (fun r a b => t.fadd r false a b.neg) (· - ·) r (x i) (y i)) ∧
      runs (.vmul g f) f.vd f.mp (if t.isFloat then fl else 4) (fun i r => by' (fun r => t.fmul r) (· * ·) r (x i) (y i)) ∧
      runs (.vmin g f) f.vd f.mp l (fun i _ => elemMinMax t false (x i) (y i)) ∧
      runs (.vmax g f) f.vd f.mp l (fun i _ => elemMinMax t true (x i) (y i)) ∧
      (f.vb = 0 → f.sc = 0 →
        runs (.vabs g f) f.vd f.mp l (fun i _ => if t.isFloat then absElem t (x i) else ⟨t.encodeI (t.decodeI (x i)).natAbs, 0⟩) ∧
        runs (.vneg g f) f.vd f.mp l (fun i _ => if t.isFloat then t.fsign true (x i) else ⟨t.encodeI (-t.decodeI (x i)), 0⟩) ∧
        (t.isFloat = true → runs (.vfrcp g f) f.vd f.mp 5 (fun i _ => t.frcp (t.decodeF (x i))) ∧
          runs (.vfrsq g f) f.vd f.mp 5 (fun i _ => t.frsq (t.decodeF (x i))))) ∧
      (t.isFloat = false → runs (.vand g f) f.vd f.mp 2 (fun i _ => ⟨x i &&& y i, 0⟩) ∧
        runs (.vor g f) f.vd f.mp 2 (fun i _ => ⟨x i ||| y i, 0⟩) ∧ runs (.vxor g f) f.vd f.mp 2 (fun i _ => ⟨x i ^^^ y i, 0⟩) ∧
        runs (.vshl g f) f.vd f.mp 2 (fun i _ => ⟨x i * 2 ^ (y i % t.width), 0⟩) ∧
        runs (.vshr g f) f.vd f.mp 2 (fun i _ => ⟨t.encodeI (t.decodeI (x i) / 2 ^ (y i % t.width)), 0⟩)) ∧
      (∃ k : VecFlight, exec (.vmerge g f) s = .next ((s.vecStarts g k c.fp.srv 2).retired g) ∧ k.due = s.clk.cc + 1 ∧ k.flags = 0 ∧
        k.setsV f.vd t.width fun i => if i < v.vl then some (if (v.mreg f.mp).testBit i then y i else x i) else none)) ∧
    (∀ f : VfFmt, f.low = 0 → t.isFloat = true → s.canIssue g (vecUses v (f.sc == 1) f.vb) = true →
      let x (i : Nat) : FVal := t.decodeF (el f.va i)
      let y (i : Nat) : FVal := t.decodeF (second f.vb f.sc i)
      let z (i : Nat) : FVal := t.decodeF (el f.vd i)
      runs (.vfma g f) f.vd f.mp fl (fun i r => t.ffma r (x i) (y i) (z i)) ∧
      runs (.vfms g f) f.vd f.mp fl (fun i r => t.ffma r (x i) (y i) (z i).neg) ∧
      runs (.vnfma g f) f.vd f.mp fl (fun i r => t.ffma r (x i).neg (y i) (z i)))

/-- R133, R134, R148: compares and predicate functions write bits of an m register, compares for active elements, predicate functions for every bit
below VL; MCNT and MFIRST give a scalar. -/
def Obligations.VectorPredicateResults : Prop :=
  ∀ (g : CellId) (s : State),
    let c := s.cell g
    let v := c.vec
    let t := v.type
    let act (mp : BitVec 4) := (List.range v.vl).filter fun i => (v.mreg mp).testBit i
    (∀ f : VrFmt, f.vd.toNat < 16 → s.canIssue g (vecUses v (f.sc == 1) f.vb) = true →
      let x (i : Nat) : Nat := elemAt (v.reg f.va) t.width i
      let y (i : Nat) : Nat := if f.sc = 1 then (if t.isFloat then (c.pil.readF f.vb).toNat else (c.pil.readS f.vb).toNat) % 2 ^ t.width
        else elemAt (v.reg f.vb) t.width i
      ∀ z ∈ ([(.vcmpeq g f, .eq), (.vcmpne g f, .ne), (.vcmplt g f, .lt), (.vcmple g f, .le), (.vcmpun g f, .un)] : List (Instr × Rel)),
        (z.2 = .un → t.isFloat = true) →
          let res (i : Nat) := elemCmp t z.2 (x i) (y i)
          ∃ k : VecFlight, exec z.1 s = .next ((s.vecStarts g k c.fp.srv 2).retired g) ∧ k.due = s.clk.cc + 1 ∧
            k.flags = (act f.mp).foldl (fun a i => a ||| (res i).2) 0 ∧
            k.setsM (f.vd.setWidth 4) fun i => if i ∈ act f.mp then some (res i).1 else none) ∧
    (∀ f : VsFmt, f.mp = 0 → f.a.toNat < 16 →
      let ma := v.mreg (f.a.setWidth 4)
      let set := (List.range v.vl).filter fun i => ma.testBit i
      (f.d.toNat < 16 → f.b.toNat < 16 → s.canIssue g Uses.none' = true →
        let mb := v.mreg (f.b.setWidth 4)
        ∀ z ∈ ([(.mand g f, fun a b => a && b), (.mor g f, fun a b => a || b), (.mxor g f, fun a b => a != b),
            (.mandn g f, fun a b => a && !b)] : List (Instr × (Bool → Bool → Bool))),
          ∃ k : VecFlight, exec z.1 s = .next ((s.vecStarts g k c.fp.srv 1).retired g) ∧ k.due = s.clk.cc ∧ k.flags = 0 ∧
            k.setsM (f.d.setWidth 4) fun i => if i < v.vl then some (z.2 (ma.testBit i) (mb.testBit i)) else none) ∧
      (f.b = 0 → s.canIssue g { Uses.none' with dst := some (false, f.d), lat := 3 } = true →
        exec (.mcnt g f) s = .next ((s.vecWillPut g false f.d (BitVec.ofNat 128 set.length) (s.clk.cc + 3 - 1)).retired g) ∧
        exec (.mfirst g f) s =
          .next ((s.vecWillPut g false f.d (BitVec.ofNat 128 (set.headD (2 ^ 64 - 1))) (s.clk.cc + 3 - 1)).retired g)))

/-- R134, R148: moves within and between v registers and to and from scalars, VSETL and VGETL: which element goes where, and after how many cc. -/
def Obligations.VectorMoveResults : Prop :=
  ∀ (g : CellId) (f : VsFmt) (s : State),
    let c := s.cell g
    let v := c.vec
    let t := v.type
    let w := t.width
    let max' := 8192 / w
    let act := (List.range v.vl).filter fun i => (v.mreg f.mp).testBit i
    let a (i : Nat) : Nat := elemAt (v.reg f.a) w i
    let sb := (c.pil.readS f.b).toNat
    let sc := (if t.isFloat then (c.pil.readF f.a).toNat else (c.pil.readS f.a).toNat) % 2 ^ w
    let moves (i : Instr) (lat : Nat) (e : Nat → Option Nat) : Prop :=
      ∃ k : VecFlight, exec i s = .next ((s.vecStarts g k c.fp.srv lat).retired g) ∧ k.due = s.clk.cc + lat - 1 ∧ k.flags = 0 ∧
        k.setsV f.d w e
    let act' (e : Nat → Nat) (i : Nat) : Option Nat := if i ∈ act then some (e i) else none
    vtValid v.vt.toNat = true →
    (f.mp = 0 → sb < max' → s.canIssue g { Uses.none' with s := [f.b], dst := some (t.isFloat, f.d), lat := 3 } = true →
      exec (.vmvs g f) s = .next ((s.vecWillPut g t.isFloat f.d (BitVec.ofNat 128 (scalarOf t (a sb))) (s.clk.cc + 3 - 1)).retired g)) ∧
    (f.mp = 0 → sb < max' → s.canIssue g (scalarSrc [f.b] f.a v) = true → moves (.vmvv g f) 2 fun i => if i = sb then some sc else none) ∧
    (f.b = 0 → s.canIssue g (scalarSrc [] f.a v) = true → moves (.vbcast g f) 2 (act' fun _ => sc)) ∧
    (f.a = 0 → f.b = 0 → t.isFloat = false → s.canIssue g Uses.none' = true → moves (.viota g f) 2 (act' fun i => i)) ∧
    (s.canIssue g Uses.none' = true → moves (.vperm g f) 4 (act' fun i =>
      let k := elemAt (v.reg f.b) w i % 2 ^ 16
      if k < max' then a k else 0)) ∧
    (s.canIssue g { Uses.none' with s := [f.b] } = true →
      moves (.vslidedn g f) 4 (act' fun i => if i + sb < max' then a (i + sb) else 0) ∧
      moves (.vslideup g f) 4 fun i => if i ∈ act ∧ sb ≤ i then some (a (i - sb)) else none) ∧
    (f.mp = 0 → vtValid f.b.toNat = true → s.canIssue g (usesS [f.a] f.d 3) = true →
      let n := min (c.pil.readS f.a).toNat (vlmax f.b.toNat)
      exec (.vsetl g f) s = .next (((s.updCell g fun c =>
        { c with vec := { c.vec with vt := f.b.setWidth 4, vl := n } }).vecWillPut g false f.d (BitVec.ofNat 128 n) (s.clk.cc + 3 - 1)).retired g)) ∧
    (f.mp = 0 → f.a = 0 → f.b = 0 → s.canIssue g { Uses.none' with dst := some (false, f.d), lat := 3 } = true →
      exec (.vgetl g f) s =
        .next ((s.vecWillPut g false f.d (BitVec.ofNat 128 (v.vl + v.vt.toNat * 2 ^ 16)) (s.clk.cc + 3 - 1)).retired g))

/-- R55, R138, R139, R148, R153: VCVT converts each active element to its place in the register of the other width; VBQ quantises 32 elements at a
time with a common scale; the reductions give one element: an integer sum modulo 2³², the largest, the smallest. -/
def Obligations.VectorConversionAndReductionResults : Prop :=
  ∀ (g : CellId) (s : State),
    let c := s.cell g
    let v := c.vec
    let t := v.type
    let act (mp : BitVec 4) := (List.range v.vl).filter fun i => (v.mreg mp).testBit i
    (∀ (f : VcFmt) (src dst : Elem), Elem.ofCode f.src.toNat = some src → Elem.ofCode f.dst.toNat = some dst →
      let sw := src.width
      let dw := dst.width
      let shift := f.part.toNat * (8192 / max sw dw)
      v.vl ≤ 8192 / max sw dw → f.part.toNat < (max sw dw + min sw dw - 1) / min sw dw → s.canIssue g Uses.none' = true →
        let from' (i : Nat) : Nat := if dw ≤ sw then i else i + shift
        let dest (i : Nat) : Nat := if dw ≤ sw then i + shift else i
        let fit := (act f.mp).filter fun i => decide ((from' i + 1) * sw ≤ 8192 ∧ (dest i + 1) * dw ≤ 8192)
        let sr := dst.takesSr
        let res (i : Nat) : FRes := convertElem src dst (laneRounding c.fp sr fit i) (elemAt (v.reg f.vs) sw (from' i))
        ∃ k : VecFlight, exec (.vcvt g f) s = .next ((s.vecStarts g k (laneDraws c.fp sr fit) 4).retired g) ∧ k.due = s.clk.cc + 3 ∧
          k.flags = fit.foldl (fun a i => a ||| (res i).flags) 0 ∧
          k.setsV f.vd dw fun j => (fit.find? fun i => dest i == j).map fun i => (res i).bits) ∧
    (∀ (f : VqFmt) (fmt : Elem), Elem.ofCode f.fmt.toNat = some fmt → fmt ∈ ([.e5m2, .e4m3, .e3m2, .e2m3, .e2m1, .int8] : List Elem) →
      f.low = 0 → v.vt = 1 → v.vl ≤ 256 → f.part.toNat ≤ vbqParts fmt.width → s.canIssue g Uses.none' = true →
        let val (i : Nat) : FVal := Elem.fp32.decodeF (elemAt (v.reg f.vs) 32 i)
        let blk (j : Nat) : List FVal := (List.range (min 32 (v.vl - 32 * j))).map fun i => val (32 * j + i)
        let special (j : Nat) : Bool := (blk j).any fun x => !x.finite
        ∃ (k : VecFlight) (e sc : VecWrite),
          exec (.vbq g f) s = .next ((s.vecStarts g k (laneDraws c.fp fmt.takesSr (List.range v.vl)) 8).retired g) ∧
          k.due = s.clk.cc + 7 ∧ k.writes = [e, sc] ∧
          ({ k with writes := [e] }).setsV f.vd fmt.width (fun q =>
            let i := q - f.part.toNat * 256
            if f.part.toNat * 256 ≤ q ∧ i < v.vl then
              some (if special (i / 32) then 0
                else (quantElem fmt (laneRounding c.fp fmt.takesSr (List.range v.vl) i) (blockExp fmt (blk (i / 32))) (val i)).bits)
            else none) ∧
          ({ k with writes := [sc] }).setsV f.ve 8 fun q =>
            let j := q - f.part.toNat * 8
            if f.part.toNat * 8 ≤ q ∧ 32 * j < v.vl then some (if special j then 0xFF else (blockExp fmt (blk j) + 127).toNat) else none) ∧
    (∀ f : VsFmt, s.canIssue g { Uses.none' with s := [f.b] } = true →
      let sb := (c.pil.readS f.b).toNat
      let x (i : Nat) : Int := t.decodeI (elemAt (v.reg f.a) t.width i)
      let acc := redAcc t
      let lat := if !t.isFloat then 6 else if t = .fp64 then 14 else if t = .fp32 then 16 else 18
      let ends (i : Instr) (e : Elem) (lat : Nat) (fl : FFlags) (y : Nat) : Prop :=
        ∃ k : VecFlight, exec i s = .next ((s.vecStarts g k (laneDraws c.fp e.takesSr (act f.mp)) lat).retired g) ∧ k.due = s.clk.cc + lat - 1 ∧
          k.flags = (if v.vl = 0 then 0 else fl) ∧ k.setsV f.d e.width fun i => if i = sb ∧ 0 < v.vl then some y else none
      let ext (lg : Bool) : FRes := c.redExt lg (v.reg f.a) (act f.mp)
      let sum := c.redSum (v.reg f.a) (act f.mp)
      (sb < 8192 / acc.width → ends (.vredsum g f) acc lat sum.flags sum.bits) ∧
      (sb < 8192 / t.width → ends (.vredmax g f) t 6 (ext true).flags (ext true).bits ∧
        ends (.vredmin g f) t 6 (ext false).flags (ext false).bits) ∧
      (t.isFloat = false → vtValid v.vt.toNat = true → v.vl ≤ 8192 / t.width →
        sum.bits = Elem.int32.encodeI (((act f.mp).map x).sum) ∧ sum.flags = 0 ∧
        (ext true).bits = t.encodeI ((act f.mp).foldl (fun m i => max m (x i)) t.intMin) ∧
        (ext false).bits = t.encodeI ((act f.mp).foldl (fun m i => min m (x i)) t.intMax)))

/-- R143 to R145: a vector load or store of the local store or the own slice, every active element aligned and allowed, unit, strided or indexed:
the elements move between memory and vt, after the cc that its mode, place and length take; the port is occupied as long. A load reads element i in
its own cc, and what these reads find, in a state with no store on its way and no wrong bit, lands in vt. A store has every byte of its elements on
its way, of elements that meet at a byte the highest-numbered one's (R144). -/
def Obligations.VectorMemoryResults : Prop :=
  ∀ (g : CellId) (f : VmFmt) (s : State) (st : OwnStore) (o : Nat → Nat),
    let c := s.cell g
    let v := c.vec
    let n := 2 ^ f.ew.toNat
    let act := (List.range v.vl).filter fun i => (v.mreg f.mp).testBit i
    let base := c.pil.readS f.sa
    let addr (i : Nat) : Word64 :=
      if f.mode = 0 then base + BitVec.ofNat 64 (i * n)
      else if f.mode = 1 then base + BitVec.ofNat 64 i * c.pil.readS f.sb
      else base + (BitVec.ofNat 32 (elemAt (v.reg f.sb) 32 i)).signExtend 64
    let p0 := max s.clk.cc v.port
    let occ := if f.mode = 0 then 1 else (max v.vl 1 + 15) / 16
    let late (b : Nat) : Nat := if f.mode = 0 then b else if f.mode = 1 then b - 1 + occ else b + occ
    f.mode ≠ 3 → f.low = 0 → (f.mode = 0 → f.sb = 0) → v.vl ≤ 1024 / n → (f.mode = 2 → v.vl ≤ 256) → st ≠ .window →
    (act = [] → st = .localStore) → (∀ i ∈ act, (addr i).toNat = ownAddr g st (o i) ∧ o i % n = 0 ∧ o i + n ≤ ownSize st c.exc.pl) →
    s.canIssue g { Uses.none' with s := if f.mode = 1 then [f.sa, f.sb] else [f.sa], mem := true } = true →
      let port (s : State) : State := s.updCell g fun c => { c with vec := { c.vec with port := p0 + occ } }
      (let due := p0 + late (if st = .slice then 9 else 5) - 1
       ∃ k : VecFlight, exec (.vld g f) s = .next ((port (s.vecStarts g k c.fp.srv (due + 1 - s.clk.cc))).retired g) ∧ k.due = due ∧
         k.flags = 0 ∧ (∀ i ∈ act, ∃ r ∈ k.reads, (i, o i) ∈ r.elems ∧ r.cc = p0 + 1 + if f.mode = 0 then 0 else i / 16) ∧
         ∀ u : State, (u.cell g).stores = [] → ((u.cell g).ownMem st).bad = [] → ((u.cell g).ownMem st).soft = [] →
           (∀ r ∈ k.reads, r.cc ≤ u.clk.cc) → (u.flightReads g k).1 = u ∧
             (u.flightReads g k).2.setsV f.vt (8 * n) fun i => if i ∈ act then some (((u.cell g).ownMem st).readN (o i) n) else none) ∧
      ∃ ps : List PendStore,
        exec (.vst g f) s = .next ((port (s.updCell g fun c =>
          ({ c with stores := c.stores ++ ps } : Cell).engine 1 (p0 + occ) 0)).retired g) ∧
        (∀ p ∈ ps, p.by' = .vector ∧ p.store = st ∧ p.vis = p0 + late (if st = .slice then 5 else 2)) ∧
        (ps.Pairwise fun p q => p.off + p.bytes.length ≤ q.off ∨ q.off + q.bytes.length ≤ p.off) ∧
        (∀ i ∈ act, ∀ k < n, ∃ p ∈ ps, p.off ≤ o i + k ∧ o i + k < p.off + p.bytes.length) ∧
        ∀ p ∈ ps, ∀ k < p.bytes.length, ∃ i ∈ act, o i ≤ p.off + k ∧ p.off + k < o i + n ∧
          (∀ j ∈ act, o j ≤ p.off + k → p.off + k < o j + n → j ≤ i) ∧
          p.bytes.getD k 0 = (leBytes (elemAt (v.reg f.vt) (8 * n) i) n).getD (p.off + k - o i) 0

/-- R140, R141, R150, R154, R155: VFEED pushes a slice, VSYNC passes on when all vector work is done. VORB of role FIRST sends its totals and
without return ends; every other one waits. A packet for the vector unit goes into its inbox; one that a waiting VORB accepts makes MIDDLE send its
sums on, and LAST write them to vd and, with return, send them back; on the return lap the totals are written to vd, and MIDDLE sends them on. The
VORB ends with its part. A packet that does not match sets MISMATCH, and a wait that reaches its limit TIMEOUT; both fault. -/
def Obligations.VectorQueueAndOrbitResults : Prop :=
  ∀ (g : CellId) (s : State),
    let c := s.cell g
    let v := c.vec
    let fails (s : State) (x : Vorb) (timeout mismatch : Bool) : State :=
      (s.updCell g fun c => { c with vec := { c.vec with vorb := none, feedStall := none, timeout := c.vec.timeout || timeout,
                                                         mismatch := c.vec.mismatch || mismatch } }).takeTrap g
        { code := 0x06, wr := false, half := false, info := 0, insn := x.insn, addr := 0, rpc := c.pil.pc }
    (∀ f : VsFmt, f.d = 0 → f.b = 0 → f.mp = 0 → s.canIssue g Uses.none' = true →
      (v.feed.length < 32 → v.feedSkip = 0 → exec (.vfeed g f) s = .next ((s.updCell g fun c =>
        { c.engine 1 0 0 with vec := { c.vec with feed := c.vec.feed ++ [{ bits := c.vec.v.get 0 f.a.toNat, from' := s.clk.cc + 3 }],
                                                  feedStall := none } }).retired g)) ∧
      (f.a = 0 → c.vecDone ≤ s.clk.cc → exec (.vsync g f) s = .next (s.retired g))) ∧
    (∀ f : VsFmt, f.mp = 0 → s.canIssue g { Uses.none' with s := [f.b] } = true → (v.vt = 0 ∨ v.vt = 0xA) →
      let ctl := (c.pil.readS f.b).toNat
      let role := ctl / 2 ^ 22 % 4
      let n := ctl / 2 ^ 16 % 64 + 1
      let w := if v.vt = 0 then 64 else 32
      let first (k : OrbitPkt) : Prop :=
        k.rows = 0 ∧ k.rg = 0 ∧ k.dstg = c.arr.orbit.next ∧ k.srcg = g ∧ k.tag = BitVec.ofNat 16 ctl ∧ k.n = BitVec.ofNat 7 n ∧
          k.kind = (if v.vt = 0 then 1 else 2) ∧ k.words = (List.range n).map fun i => BitVec.ofNat 64 (elemAt (v.reg f.a) w i)
      let waits (t : State) (onReturn : Bool) : Prop :=
        ∃ x : Vorb, (t.cell g).vec.vorb = some x ∧ x.role.toNat = role ∧ x.n = n ∧ x.tag = BitVec.ofNat 16 ctl ∧ x.vd = f.d ∧
          x.va.toNat = v.reg f.a ∧ x.ret = (ctl / 2 ^ 24 % 2 == 1) ∧ x.onReturn = onReturn ∧ x.since = s.clk.cc ∧ (t.cell g).pil = c.pil
      ctl < 2 ^ 25 →
      (role = 1 → c.arr.orbit.nextV = true → c.arr.orbit.nextX = false →
        ∃ k : OrbitPkt, first k ∧
          (ctl / 2 ^ 24 % 2 = 0 →
            exec (.vorb g f) s = .next ({ s with orbit := s.orbit ++ [k] }.updCell g fun c => c.retire s.clk.cc 1 none 0x0F)) ∧
          (ctl / 2 ^ 24 % 2 = 1 → v.inbox = [] → ∃ t, exec (.vorb g f) s = .next t ∧ t.orbit = s.orbit ++ [k] ∧ waits t true)) ∧
      ((role = 2 ∧ c.arr.orbit.nextV = true ∨ role = 3) → c.arr.orbit.prevV = true → v.inbox = [] →
        ∃ t, exec (.vorb g f) s = .next t ∧ t.orbit = s.orbit ∧ waits t false)) ∧
    (∀ (k : OrbitPkt) (rest : List OrbitPkt), s.orbit = k :: rest → k.dstg = g → k.rows = 0 → s.live g = true → v.inbox.length < 4 →
      v.vorb = none → exec (.vectorOrbitPacket g) s = .next ({ s with orbit := rest }.updCell g fun c =>
        { c with vec := { c.vec with inbox := c.vec.inbox ++ [k] } })) ∧
    (∀ (k : OrbitPkt) (rest : List OrbitPkt) (x : Vorb), s.orbit = k :: rest → k.dstg = g → k.rows = 0 → s.live g = true → v.inbox = [] →
      v.vorb = some x → c.arr.orbit.nextX = false → c.arr.orbit.prevX = false →
      let accepted := k.tag = x.tag ∧ k.rg = (if x.onReturn then 1 else 0) ∧ k.n.toNat = x.n ∧ k.kind = (if x.int then 2 else 1) ∧
        k.srcg = if x.onReturn then c.arr.orbit.next else c.arr.orbit.prev
      let w := if x.int then 32 else 64
      let sum (i : Nat) : FRes :=
        let a := (k.words.getD i 0).toNat
        let b := elemAt x.va.toNat w i
        if x.int then ⟨(a + b) % 2 ^ 32, 0⟩ else Elem.fp64.fadd (Rnd.plain x.vrm) true (Elem.fp64.decodeF a) (Elem.fp64.decodeF b)
      let total (i : Nat) : Nat := if x.onReturn then (k.words.getD i 0).toNat else (sum i).bits
      let role := x.role.toNat
      let sends (y : OrbitPkt) (dst : CellId) (back : Bool) : Prop :=
        y.rows = 0 ∧ y.rg = (if back then 1 else 0) ∧ y.dstg = dst ∧ y.srcg = g ∧ y.tag = x.tag ∧ y.n = BitVec.ofNat 7 x.n ∧
          y.kind = (if x.int then 2 else 1) ∧ y.hop = k.hop + 1 ∧
          if x.onReturn then y.words = k.words else ∀ i < x.n, y.words.getD i 0 = BitVec.ofNat 64 (sum i).bits
      let ended := role = 3 ∨ x.onReturn = true ∨ x.ret = false
      (¬ accepted → exec (.vectorOrbitPacket g) s = .next (fails { s with orbit := rest } x false true)) ∧
      (accepted → role = 2 ∨ role = 3 ∨ role = 1 ∧ x.onReturn = true → (role = 3 → x.onReturn = false) →
        ∃ (t : State) (y : OrbitPkt) (e : VecFlight),
          exec (.vectorOrbitPacket g) s = .next t ∧ (t.cell g).vec.flight = v.flight ++ [e] ∧ e.due = s.clk.cc ∧
          e.flags = (if x.onReturn then 0 else (List.range x.n).foldl (fun a i => a ||| (sum i).flags) 0) ∧
          (if role = 3 ∨ x.onReturn = true then e.setsV x.vd w fun i => if i < x.n then some (total i) else none else e.writes = []) ∧
          t.orbit = rest ++ (if role = 2 ∨ role = 3 ∧ x.ret = true then [y] else []) ∧
          sends y (if role = 2 ∧ x.onReturn = false then c.arr.orbit.next else c.arr.orbit.prev) (role == 3 || x.onReturn) ∧
          (t.cell g).vec.vorb = (if ended then none else some { x with onReturn := true }) ∧ (t.cell g).vec.inbox = [] ∧
          (t.cell g).pil = if ended then { c.pil with pc := c.pil.pc + 4, next := s.clk.cc + 1, nextWhy := 0x0F } else c.pil)) ∧
    (∀ x : Vorb, v.vorb = some x → s.live g = true → x.since + v.waitLimit.toNat ≤ s.clk.cc →
      exec (.vecWaitTimeout g) s = .next (fails s x true false))

/-! Matrix arrays (R73 to R124) and the mover (R277 to R287). -/

/-- R80 to R82, R85, R93, R98, R99, R105, R108, R111, R141: a queued pass starts with all its row groups empty; the operands of a step are read in
the cc before its broadcast; the step adds its products to its row group in its broadcast cc, the next one can follow after its period, and a failed
check is kept for its drain cycle 12; the slice it took leaves the feed queue at the end of that cc. A pass that sends its totals commits in one cc,
with one packet for each row group; another one writes the outputs of a row group in each cc, and is committed after the last. -/
def Obligations.PassResults : Prop :=
  (
    ∀ (g : CellId) (s : State) (c : Cell) (p : Pass), s.cells = [(g.toNat, c)] → c.arr.passes = [p] → s.live g = true → c.quiet →
      (∀ e ∈ s.opt.ports, e.2.linked = true → e.2.up = true) → s.tickHc = none → c.slice.bad = [] → c.arr.inbox = [] → c.arr.lost = [] → p.fail = none →
      let d := Desc.ofWords p.dw
      let now := s.clk.cc
      let rg := p.step / d.ksteps
      let takes : Prop := p.step % d.ksteps = 0 ∧ d.orb ≠ 2 ∧ d.orb ≠ 3
      (let start := now + if d.fp32 then 2 else 1
       p.stage = .queued → p.half = none → c.arr.hold = false → 0 < d.steps → p.issue + 6 ≤ start → c.arr.feederFree ≤ start →
        exec (.passStart g) s = .next (s.updCell g fun c => { c with arr := { c.arr with passes :=
          [{ p with stage := .stepping, start := start, due := start,
                    groups := List.replicate d.rowGroups { init := none, chunks := [], cur := [], hop := 0 } }] } })) ∧
      (p.stage = .stepping → p.ready = none → p.half = none → p.due = now + 1 → d.fp32 = false → c.arr.folds = [] → p.stall < c.arr.stallLimit.toNat →
        (d.src = true → ∃ sl ∈ c.vec.feed.head?, sl.from' ≤ now + 1) →
        let feed := if d.src then c.vec.feed.head?.map fun sl => sl.bits.toNat else none
        let o := s.stepOps g d feed (s.readHalf g d p.step (now + 1)) p.step
        let ini := if takes then (s.initTotals g d rg).1 else []
        ((s.readStep g).cell g).arr.passes = [{ p with ready := some { at' := now + 1, ops := o.1, ini := ini } }]) ∧
      (∀ r : StepRead, p.stage = .stepping → p.ready = some r → r.at' = now + 1 →
        let out := (List.range r.ops.a.length).flatMap fun i => (List.range d.n).map fun n => d.stepV r.ops i n
        let check := r.at' + 11 + (d.period - 1)
        let a := p.groups.getD rg { init := none, chunks := [], cur := [], hop := 0 }
        let x := RgAcc.step (if takes then { a with init := some (r.ini.map FRes.bits) } else a) d p.step out (check + 1)
        ∃ t q, exec (.passStep g { residue := false, wrong := [] }) s = .next t ∧ t.clk.cc = now + 1 ∧ (t.cell g).arr.passes = [q] ∧
          q.dw = p.dw ∧ q.step = p.step + 1 ∧ q.due = r.at' + d.period ∧ q.stage = (if p.step + 1 = d.steps then .stepped else .stepping) ∧
          q.groups = p.groups.set rg x.1 ∧ q.flags = p.flags ||| (x.2 ||| orFlags (r.ini.map FRes.flags)) ∧
          q.stall = p.stall + (r.at' - p.due) ∧ q.fail = (if d.stepFails r.ops out then some (check, 0x01) else none) ∧
          (t.cell g).arr.pop = (if d.src then some r.at' else none) ∧ (t.cell g).vec.feed = c.vec.feed ∧
          (∀ a, (t.cell g).ls.read a = c.ls.read a ∧ (t.cell g).slice.read a = c.slice.read a) ∧
          ∀ r, (t.cell g).pil.readS r = c.pil.readS r) ∧
      (p.stage = .stepped → (d.orb = 1 ∨ d.orb = 2) → (∀ a ∈ p.groups, a.init ≠ none) → p.staged ≤ now → c.arr.commitFree ≤ now + 1 →
        c.arr.orbit.nextX = false →
        let totals := p.groups.map fun a => (List.range (a.init.getD []).length).map fun x => d.total ((a.init.getD []).getD x 0) a.chunks x
        ∃ t ks, exec (.passCommit g) s = .next t ∧ t.clk.cc = now + 1 ∧
          let e := t.cell g
          e.arr.passes = [] ∧ e.arr.done = c.arr.done + 1 ∧ e.arr.lastCommitted = BitVec.ofNat 16 d.pidx ∧
            e.fp.drn = c.fp.drn ||| (p.flags ||| orFlags (totals.flatten.map FRes.flags)) ∧ t.orbit = s.orbit ++ ks ∧
            ks.map OrbitPkt.words = totals.map (fun l => l.map fun x => BitVec.ofNat 64 x.bits) ∧
            ∀ k ∈ ks, k.dstg = c.arr.orbit.next ∧ k.srcg = g ∧ k.tag = BitVec.ofNat 16 d.tag ∧ k.pidx = BitVec.ofNat 16 d.pidx) ∧
      (p.stage = .committing → p.crow = d.commitCc → p.cend = now →
        ∃ t, exec (.passCommit g) s = .next t ∧ t.clk.cc = now + 1 ∧
          let e := t.cell g
          e.arr.passes = [] ∧ e.arr.done = c.arr.done + 1 ∧ e.arr.lastCommitted = BitVec.ofNat 16 d.pidx ∧
            e.fp.drn = c.fp.drn ||| p.endFlags ∧ e.arr.commitFree = now + 1 ∧ e.slice = c.slice)) ∧
  (
    ∀ (g : CellId) (s : State) (p : Pass) (rest : List Pass),
      let c := s.cell g
      let d := Desc.ofWords p.dw
      let acc := p.groups.getD p.crow { init := none, chunks := [], cur := [], hop := 0 }
      let totals := (List.range (acc.init.getD []).length).map fun x => d.total ((acc.init.getD []).getD x 0) acc.chunks x
      let outs := roundAll d (totals.map FRes.bits) c.fp.srd
      let w := codeWidth d.ofmt
      c.arr.passes = p :: rest → p.stage = .committing → p.crow < d.commitCc → 0 < d.n → d.n * w % 8 = 0 →
      totals.length = d.rowsOf p.crow * d.n →
        let e := (s.commitRow g).cell g
        e.fp.srd = outs.2 ∧
          e.arr.passes = { p with crow := p.crow + 1, endFlags := p.endFlags ||| orFlags (outs.1.map FRes.flags) } :: rest ∧
          e.stores = c.stores ++ (List.range (d.rowsOf p.crow)).map fun i =>
            { by' := .pass, store := .slice, off := d.oOff + (4 * p.crow + i) * d.oStr, vis := s.clk.cc,
              bytes := leBytes (ofElems w d.n fun j => (outs.1.map FRes.bits).getD (i * d.n + j) 0) (d.n * w / 8) }) ∧
  ∀ (c : Cell) (b : Nat), c.arr.pop = some b →
    (c.popFeed b).vec.feed = c.vec.feed ∧ (c.popFeed (b + 1)).vec.feed = c.vec.feed.tail ∧ (c.popFeed (b + 1)).arr.pop = none

/-- R97, R102, R109 to R111, R120, R122, R142: an orbit packet goes into the inbox; a pass whose bubbles or waiting reach the limit aborts with
cause STALL, after its record, and ARR_CTL.ABORT aborts the current one, the first that has not begun to commit, with cause SUPERVISOR, if the pilot
writes it at supervisor level, and is the fault PRIV at user level: it and every pass behind it are gone, the feed queue is empty, ARR_ABORT and
PABORT are set, and the report goes to the hub with the PIDX of the oldest pass as floor. HOLD is as written. -/
def Obligations.PassControlResults : Prop :=
  ∀ (g : CellId) (s : State),
    let c := s.cell g
    (∀ (k : OrbitPkt) (rest : List OrbitPkt), s.orbit = k :: rest → k.dstg = g → k.rows ≠ 0 → s.live g = true → c.arr.inbox.length < 4 →
      (∀ p ∈ c.arr.passes, p.stage = .queued) → exec (.orbitPacket g) s = .next ({ s with orbit := rest }.updCell g fun c =>
        { c with arr := { c.arr with inbox := c.arr.inbox ++ [k] } })) ∧
    (∀ (l : List Pass) (p : Pass) (rest : List Pass), c.arr.passes = l ++ p :: rest →
     let aborted (t : State) (cause : Byte) (msgs : List CellMsg) : Prop :=
       let d := t.cell g
       let floor := ((l ++ [p]).headD p).pidx
       d.arr.passes = l ∧ d.arr.abortValid = true ∧ d.arr.abortCause = cause ∧ d.arr.abortPidx = p.pidx ∧ d.arr.abortFloor = floor ∧
         d.exc.pabort = true ∧ d.vec.feed = [] ∧ d.vec.feedSkip = 0 ∧
         d.out = c.out ++ msgs ++ [.aborted (c.run.map Running.cmd) cause floor] ∧
         d.ls = c.ls ∧ d.slice = c.slice ∧ d.stores = c.stores ∧ ∀ r, d.pil.readS r = c.pil.readS r
     (((∀ q ∈ l, q.stage = .committing) → p.stage ≠ .committing → s.live g = true → c.exc.pl = true →
       ∃ t, exec (.arrCtlAbort g) s = .next t ∧ aborted t 0x05 [] ∧ s.sameBut t g)) ∧
     (l = [] → p.stage = .stepping ∨ p.waits = true → c.stallsOut p = true → s.live g = true →
       p.due + (c.arr.stallLimit.toNat - p.stall) ≤ s.clk.cc →
         ∃ t e, exec (.passStallLimit g) s = .next t ∧ aborted t 0x03 [.record e] ∧ e.mech = 0x0F ∧ e.action = 0x02 ∧ s.sameBut t g)) ∧
    (s.live g = true → c.exc.pl = true →
      ∀ h : Bool, ∃ t, exec (.arrCtlHold g h) s = .next t ∧ s.sameBut t g ∧
        t.cell g = { c with arr := { c.arr with hold := h }, trc := (t.cell g).trc }) ∧
    (s.running g = true → c.exc.pl = false →
      let denied := ({ s with fresh := s.fresh + 1 } : State).fault g 0x02 true false 0xFFFF8400 0 (Sys2Proof.Config.faultInsn s.fresh)
      exec (.arrCtlAbort g) s = .next denied ∧ ∀ h : Bool, exec (.arrCtlHold g h) s = .next denied)

/-- R257, R278 to R285, R287: a mover command whose rows lie each in one region, local store, window, a slice or HBM, none written twice or also
read, where nothing waits to be stored, no bit is wrong, no line is cached and no home is fenced or in reset, moves them: each destination byte
takes its source byte, or the pattern's byte at its address, and every other byte stays. It takes the cc of R287. A command that fails a check as it
starts moves nothing and records its code and address, an operation code that is reserved through COPY (the order of the checks is the model's, log
71). Its completion removes it; at chain scope it waits for the STATUS of every PUT. -/
def Obligations.MoverResults : Prop :=
  ∀ (g : CellId) (s : State) (m : MovCmd),
    let c := s.cell g
    let twoD := m.op = 2 ∨ m.op = 3
    let fills := m.op = 1 ∨ m.op = 3
    let n := if twoD then m.rows else 1
    let region (a : Nat) : Option (Nat × Nat) :=
      match place s.hbmBytes g a with
      | .ls _ => some (0, 0)
      | .win _ => some (1, 0)
      | .slice h _ => some (2, h.toNat)
      | .hbm _ => some (3, 0)
      | _ => none
    let row (base : Nat) (str : Int) (q : Nat) : Int := base + q * str
    let inside (base : Nat) (str : Int) (q : Nat) : Prop :=
      0 ≤ row base str q ∧ region (row base str q).toNat ≠ none ∧
        region (row base str q).toNat = region ((row base str q).toNat + m.len - 1)
    let one (base : Nat) (str : Int) : Prop := ∀ q < n, region (row base str q).toNat = region base
    let refuge (base : Nat) (str : Int) : Prop := ∃ q < n, row base str q < 0x40000 ∧ 0x3F000 < row base str q + m.len
    let started (t : State) (cc : Nat) : Prop :=
      (t.cell g).mov.cmds = [{ m with started := true, from' := s.clk.cc + cc, since := s.clk.hc }]
    let starts (t : State) : Prop :=
      (m.op = 0 ∨ 4 ≤ m.op → exec (.copy g none) s = .next t) ∧ (m.op = 1 → exec (.fill g none) s = .next t) ∧
        (m.op = 2 → exec (.copy2d g none) s = .next t) ∧ (m.op = 3 → exec (.fill2d g none) s = .next t)
    c.mov.cmds = [m] → s.live g = true →
    (m.started = false → m.from' ≤ s.clk.cc →
      let reserved := 4 ≤ m.op ∨ m.w 0 / 2 ^ 11 % 2 ^ 21 ≠ 0 ∨ m.w 2 / 2 ^ 52 ≠ 0 ∨ (¬ fills ∧ m.w 1 / 2 ^ 52 ≠ 0) ∨ (¬ twoD ∧ m.rows ≠ 0)
      let empty := m.op < 4 ∧ m.len * n = 0
      (m.bad = false → m.user = false → ¬ empty → ¬ reserved → (∀ q < n, inside m.dst m.dstr q) → one m.dst m.dstr →
        (¬ fills → (∀ q < n, inside m.src m.sstr q) ∧ one m.src m.sstr) →
        (∀ h, (s.cell h).stores = [] ∧ (s.cell h).ls.bad = [] ∧ (s.cell h).win.bad = [] ∧ (s.cell h).slice.bad = [] ∧ s.cellDown h = false) →
        s.hbm.mem.bad = [] → s.hbm.mem.soft = [] → (∀ o, s.hbm.fencedAt o = false) → (s.hbm.cache (tileOf g)).lines = [] →
        (s.hbm.cache (tileOf g)).fills = [] →
        (∀ q < n, ∀ r < n, ∀ i < m.len, ∀ j < m.len, (row m.dst m.dstr q + i = row m.dst m.dstr r + j → q = r ∧ i = j) ∧
          (¬ fills → row m.src m.sstr q + i ≠ row m.dst m.dstr r + j)) →
        let byte (s : State) (a : Nat) : Byte :=
          match place s.hbmBytes g a with
          | .ls o => (s.cell g).ls.read o
          | .win o => (s.cell g).win.read o
          | .slice h o => (s.cell h).slice.read o
          | .hbm o => s.hbm.mem.read o
          | _ => 0
        let far (a hbm cc : Nat) : Option (Nat × Nat) :=
          match place s.hbmBytes g a with
          | .slice h _ => if h = g then none else some (latCc g h + 6, latCc g h)
          | .hbm _ => some (hbm, cc)
          | _ => none
        let link := ((m.len * n + 63) / 64 * 128 + s.clk.d.toNat - 1) / s.clk.d.toNat
        let time := match (if fills then none else far m.src 292 1), far m.dst 6 146 with
          | none, none => (if fills then 4 else 6) + (m.len * n + 511) / 512 + 1
          | some x, none => x.1 + link + x.2
          | none, some y => y.1 + link + y.2
          | some x, some y => max x.1 y.1 + link + max x.2 y.2
        0 < s.clk.d.toNat →
        ∃ t, starts t ∧ started t time ∧ (t.cell g).mov.valid = c.mov.valid ∧ (∀ r, (t.cell g).pil.readS r = c.pil.readS r) ∧
          (∀ q < n, ∀ i < m.len, byte t (row m.dst m.dstr q + i).toNat =
            if fills then BitVec.ofNat 8 (m.w 1 / 256 ^ ((row m.dst m.dstr q + i).toNat % 8) % 256)
            else byte s (row m.src m.sstr q + i).toNat) ∧
          ∀ a : Nat, (∀ q < n, ∀ i < m.len, row m.dst m.dstr q + i ≠ (a : Int)) → byte t a = byte s a) ∧
      (m.bad = false → empty → ∃ t, starts t ∧ started t 0 ∧ (t.cell g).mov.valid = c.mov.valid ∧ (t.cell g).ls = c.ls ∧ s.sameBut t g) ∧
      ∀ (code : BitVec 4) (a : Nat),
        ((m.bad = true ∧ code = 5 ∧ a = m.addr) ∨
          (m.bad = false ∧ ¬ empty ∧
            ((reserved ∧ code = 1 ∧ a = m.addr) ∨
              (¬ reserved ∧
                let hole (base : Nat) (str : Int) : Prop := ¬ ∀ q < n, inside base str q
                let srcOk := fills ∨ (¬ hole m.src m.sstr ∧ one m.src m.sstr)
                (¬ fills ∧ hole m.src m.sstr ∧ code = 2 ∧ a = m.src) ∨
                ((fills ∨ ¬ hole m.src m.sstr) ∧ hole m.dst m.dstr ∧ code = 2 ∧ a = m.dst) ∨
                (¬ hole m.dst m.dstr ∧ ¬ fills ∧ ¬ hole m.src m.sstr ∧ ¬ one m.src m.sstr ∧ code = 3 ∧ a = m.src) ∨
                (¬ hole m.dst m.dstr ∧ srcOk ∧ ¬ one m.dst m.dstr ∧ code = 3 ∧ a = m.dst) ∨
                (¬ hole m.dst m.dstr ∧ one m.dst m.dstr ∧ srcOk ∧ m.user = true ∧ code = 4 ∧
                  ((¬ fills ∧ refuge m.src m.sstr ∧ a = m.src) ∨
                    ((fills ∨ ¬ refuge m.src m.sstr) ∧ (refuge m.dst m.dstr ∨ region m.dst = some (1, 0)) ∧ a = m.dst))))))) →
        ∃ t, starts t ∧ started t 0 ∧
          let v := (t.cell g).mov
          v.valid = true ∧ (if c.mov.valid then v.more = true ∧ v.code = c.mov.code ∧ v.errAddr = c.mov.errAddr ∧ v.ticket = c.mov.ticket
            else v.code = code ∧ v.errAddr = BitVec.ofNat 52 a ∧ v.ticket = BitVec.ofNat 32 m.ticket) ∧
          (t.cell g).ls = c.ls ∧ (t.cell g).win = c.win ∧ (t.cell g).slice = c.slice ∧ (∀ r, (t.cell g).pil.readS r = c.pil.readS r) ∧
          s.sameBut t g) ∧
    (m.started = true → m.from' ≤ s.clk.cc →
      (m.scope ≠ 3 ∨ s.putsOut g = false → exec (.moverComplete g m.ticket) s = .next (s.updCell g fun c =>
        ({ c with mov := { c.mov with cmds := [] } } : Cell).engine 6 0 0)) ∧
      (m.scope = 3 → s.putsOut g = true → exec (.moverComplete g m.ticket) s = .next s))

/-! Registers, mailboxes, fabric, ingress. -/

/-- R24, R25, R32, R209 to R211, R227: a word posted to a mailbox of fewer than eight words is appended and MBOX becomes pending; into a full one it
is dropped, OVF set and DROPS counted. A pilot loads CELL_MBOX_HEAD as it loads any register, its own cell's in 4 cc, another's by a request; as the
load samples, 2 cc after issue or when the request is performed, the oldest word is removed and brought, 0 from an empty mailbox. User code reads
its own cell's only, and else takes PRIV. A host's word is ignored and counted, and its read brings 0. -/
def Obligations.MailboxResults : Prop :=
  ∀ (g h : CellId) (s : State),
    let c := s.cell g
    (∀ w : Word64, s.dispOn = true → s.cellDown g = false → exec (.cellMboxIn g (.pilot h) w) s = .next (s.updCell g fun c =>
      if c.mbox.words.length < 8 then { c with mbox := { c.mbox with words := c.mbox.words ++ [w] }, exc := { c.exc with mbox := true } }
      else { c with mbox := { c.mbox with ovf := true, drops := BitVec.ofNat 16 (min 0xFFFF (c.mbox.drops.toNat + 1)) } })) ∧
    (∀ (p : PortId) (w : Word64), s.barOpen p = true → ∃ t, exec (.cellMboxIn g (.host p) w) s = .next t ∧ t.cells = s.cells ∧
      (t.pport p).wdrop.toNat = min 0xFFFF ((s.pport p).wdrop.toNat + 1)) ∧
    (∀ rd : BitVec 5, s.live h = true → ((s.cell h).exc.pl = true ∨ h = g) →
      let p := (s.cell h).pil
      let u (lat : Nat) : Uses := { usesS [] rd lat with mem := true }
      let w : PilotWb := { wide := false, reg := rd, val := 0, due := s.clk.cc + 3, bad := false, load := true,
                           reads := [{ cc := s.clk.cc + 2, src := .reg 0x108, addr := 0xFFFF8108 }], since := s.clk.cc }
      let head (d : Cell) : Word64 := d.mbox.words.headD 0
      let popped (r : State) : State := r.updCell g fun c => { c with mbox := { c.mbox with words := c.mbox.words.tail } }
      (h = g → p.remoteHolds (u 4) = false → p.hold = false → p.ready (u 4) s.clk.cc ≤ s.clk.cc →
        exec (.cellMboxHead g (.pilot h) rd) s = .next (s.updPil g fun p => { p with wbs := p.wbs ++ [w] })) ∧
      (∀ r : State, r.clk.cc = s.clk.cc + 2 → r.wbReads g w =
        (popped r, { w with reads := [], got := leBytes (head (r.cell g)).toNat 8, val := (head (r.cell g)).setWidth 128 })) ∧
      (h ≠ g → p.remotes = [] → p.remoteHolds (u 0) = false → p.hold = false → p.ready (u 0) s.clk.cc ≤ s.clk.cc →
        ∃ (t : State) (x : Remote), exec (.cellMboxHead g (.pilot h) rd) s = .next t ∧ (t.cell h).pil.remotes = [x] ∧ x.load = true ∧
          x.addr = 0xF0800108 + g.toNat * 0x8000 ∧ x.len = 8 ∧ x.dest = some { wide := false, reg := rd, ext := .zero } ∧
          x.performed = false ∧ x.cc = s.clk.cc ∧ x.since = s.clk.hc ∧ s.sameBut t h ∧
          ∀ y, (t.cell h).pil.readS y = (s.cell h).pil.readS y) ∧
      (∀ x : Remote, h ≠ g → p.remotes = [x] → x.load = true → x.addr = 0xF0800108 + g.toNat * 0x8000 → x.len = 8 → x.performed = false →
        x.lost = false → x.cc ≤ s.clk.cc →
        exec (.remoteRequest h x.req) s = .next ((popped s).updPil h fun p =>
          { p with remotes := [{ x with performed := true, back := s.backAt h x, got := some (leBytes (head c).toNat 8) }] }))) ∧
    (∀ rd : BitVec 5, s.running h = true → (s.cell h).exc.pl = false → h ≠ g →
      exec (.cellMboxHead g (.pilot h) rd) s = .next (({ s with fresh := s.fresh + 1 } : State).fault h 0x02 false false
        (BitVec.ofNat 64 (regAddr h g 0x0108)) 0 (Config.faultInsn s.fresh))) ∧
    (∀ (p : PortId) (rd : BitVec 5), s.barOpen p = true →
      exec (.cellMboxHead g (.host p) rd) s = .next { s with pins := { s.pins with read := some (p, 0) } })

/-- R9, R10, R25, R31 to R33, R59, R62, R126, R130, R242, R248, R315, R316, R358: writes and reads of registers. VEC_CFG takes VT where the code is
valid, then VL up to VLMAX; a generator stores 0 as 1, at the end of the cc; a supervisor's write sets an RW field, and a user's of a register that
is not a mailbox takes PRIV; a host's W1C write clears, its write of a read-only register is counted; its read answers the whole register and clears
its RC fields, and one of BAR0 answers 0. -/
def Obligations.RegisterResults : Prop :=
  ∀ (g : CellId) (s : State) (v : Word64),
    let c := s.cell g
    let privAt (a : Nat) : State :=
      ({ s with fresh := s.fresh + 1 } : State).fault g 0x02 true false (BitVec.ofNat 64 a) 0 (Config.faultInsn s.fresh)
    let x : Word32 := if v.setWidth 32 = (0 : Word32) then 1 else v.setWidth 32
    let later (off : Nat) : PendReg := { off := off, val := v, vis := s.clk.cc, outer := false }
    (s.live g = true → c.exc.pl = true →
      (∃ t, exec (.vecCfgWrite g v) s = .next t ∧ s.sameBut t g ∧
        (t.cell g).vec.vt = (if vtValid (bits v.toNat 16 4) then v.extractLsb' 16 4 else c.vec.vt) ∧
        (t.cell g).vec.vl = min (v.toNat % 2048) (vlmax (t.cell g).vec.vt.toNat) ∧ (t.cell g).vec.v = c.vec.v ∧ (t.cell g).vec.m = c.vec.m) ∧
      exec (.srStateWrite g .vector v) s = .next (s.updCell g fun c => { c with regs := c.regs ++ [later 0x210] }) ∧
      exec (.srStateWrite g .drain v) s = .next (s.updCell g fun c => { c with regs := c.regs ++ [later 0x218] }) ∧
      exec (.registerWrite (.pilot g) 0xFFFF8A18 v .whole) s = .next (s.updCell g fun c => { c with exc := { c.exc with ssp := v } }) ∧
      exec (.registerWrite (.pilot g) 0xFFFF8A20 v .whole) s =
        .next (s.updCell g fun c => { c with exc := { c.exc with vb := v.extractLsb' 10 8 } })) ∧
    (∀ u : State, let d := u.cell g
      (d.regs = [later 0x210] → (u.landRegs g (s.clk.cc + 1)).cell g = { d with regs := [], fp := { d.fp with srv := x } }) ∧
      (d.regs = [later 0x218] → (u.landRegs g (s.clk.cc + 1)).cell g = { d with regs := [], fp := { d.fp with srd := x } })) ∧
    (s.running g = true → c.exc.pl = false →
      exec (.vecCfgWrite g v) s = .next (privAt 0xFFFF8600) ∧ exec (.srStateWrite g .vector v) s = .next (privAt 0xFFFF8210) ∧
      ∀ (a : BitVec 52) (off : Nat), place s.hbmBytes g a.toNat = .hubReg off →
        exec (.registerWrite (.pilot g) a v .whole) s = .next (privAt a.toNat)) ∧
    (∀ p : PortId, s.barOpen p = true →
      exec (.registerWrite (.host p) 0xF0080000 v .low) s =
        .next { s with safe := { s.safe with notice := s.safe.notice && !v.getLsbD 2 } } ∧
      (∃ t, exec (.registerWrite (.host p) 0xF0050000 v .whole) s = .next t ∧ t.time = s.time ∧ t.cells = s.cells ∧
        (t.pport p).wdrop.toNat = min 0xFFFF ((s.pport p).wdrop.toNat + 1)) ∧
      (exec (.registerRead p (.bar2 0x50000) .whole) s = .next { s with pins := { s.pins with read := some (p, s.time.track) } }) ∧
      (∃ t, exec (.registerRead p (.bar2 0x50018) .low) s = .next t ∧ t.pins.read = some (p, BitVec.ofNat 64 (s.time.stat % 2 ^ 32)) ∧
        t.time = { s.time with steps := 0 }) ∧
      ∀ a h, exec (.registerRead p (.bar0 a) h) s = .next { s with pins := { s.pins with read := some (p, 0) } })

/-- R16, R18, R20, R21, R23, R442, R443: a good flit that the cell sends, or that is the oldest on the wire from the neighbour, is buffered at its
input, or, where its way leads into the hub, at the crossbar, which hands it on to the other half; a lost one leaves a record, which marks its
command where the sideband names one, and all commands where nothing does, its source is owed an answer, and its request is not performed. In an hc
each output sends at most one flit, of the class that comes first, the way that its destination gives, for a credit; the receiver's place that
becomes free comes back as a credit, which can be used again. -/
def Obligations.FabricResults : Prop :=
  (
    ∀ (r : CellId) (s : State) (f : Flit), s.dispOn = true →
      let x := (s.cell r).router
      let v := channelOf f
      let same (t : State) (i : Nat) : Prop := ∀ k, k ≠ 8 * i + v → (t.cell r).router.bufs.get [] k = x.bufs.get [] k
      (f.src = .cell r → s.cellDown r = false → s.flitClassed f = true → (x.buf 5 v).length < 8 →
        (∃ t, exec (.flitReceive r .cell f .good) s = .next t ∧ s.sameBut t r ∧ (t.cell r).router.buf 5 v = x.buf 5 v ++ [f] ∧ same t 5 ∧
          (t.cell r).router.wire = x.wire ∧ (t.cell r).router.used = x.used ∧ (t.cell r).out = (s.cell r).out) ∧
        (∃ t e, exec (.flitReceive r .cell f .lost) s = .next t ∧ s.sameBut t r ∧ (t.cell r).out = (s.cell r).out ++ [.record e] ∧
          e.mech = 0x05 ∧ e.action = (if f.tag.isSome then 0x01 else 0x00) ∧ e.cell = some r ∧ e.cmd = f.tag ∧
          (t.cell r).router = { x with owed := x.owed ++ (match f.req with | some q => [(f.src, q)] | none => []) } ∧
          ∀ y ∈ (t.cell r).pil.remotes, some y.req = f.req → y.performed = false → y.lost = true) ∧
        (∃ t e, exec (.flitReceive r .cell f .lostUnknown) s = .next t ∧ s.sameBut t r ∧ (t.cell r).out = (s.cell r).out ++ [.record e] ∧
          e.mech = 0x05 ∧ e.action = 0x04 ∧ (t.cell r).router = x)) ∧
      (∀ (inp o : Dir) (q : CellId), farEnd r inp = some (q, o) → q ≠ r → inp ≠ .cell → (inp = .edge → viaHub f = false) →
        let k := 8 * dirNat o + v
        ((s.cell q).router.wire.get [] k).head? = some f → ∃ t, exec (.flitReceive r inp f .good) s = .next t ∧
          (t.cell r).router.buf (dirNat inp) v = x.buf (dirNat inp) v ++ [f] ∧ same t (dirNat inp) ∧
          (t.cell q).router.wire.get [] k = ((s.cell q).router.wire.get [] k).tail ∧ (t.cell q).router.bufs = (s.cell q).router.bufs ∧
          ∀ h, h ≠ r → h ≠ q → t.cell h = s.cell h) ∧
      (viaHub f = true → f.src ≠ .hub → atHub r .edge f = true →
        let k := 8 * 4 + v
        let at' := 8 * r.toNat + v
        (x.wire.get [] k).head? = some f → ∃ t, exec (.flitReceive r .edge f .good) s = .next t ∧ s.hbm = t.hbm ∧
          (t.cell r).router = { x with wire := x.wire.set k (x.wire.get [] k).tail } ∧ (∀ h, h ≠ r → t.cell h = s.cell h) ∧
          t.xbar.bufs.get [] at' = (if f.dst = .hub then s.xbar.bufs.get [] at' else s.xbar.bufs.get [] at' ++ [f])) ∧
      (∀ a d : CellId, f.src = .cell a → f.dst = .cell d → halfOf a ≠ halfOf d → hubRouter d = r → hubRouter a ≠ r →
        let k := 8 * (hubRouter a).toNat + v
        (s.xbar.bufs.get [] k).head? = some f → (x.buf 4 v).length < 16 → ∃ t, exec (.flitReceive r .edge f .good) s = .next t ∧
          (t.cell r).router.buf 4 v = x.buf 4 v ++ [f] ∧ same t 4 ∧ t.xbar.bufs.get [] k = (s.xbar.bufs.get [] k).tail ∧
          ∀ h, h ≠ r → t.cell h = s.cell h) ∧
      (∀ (out i : Dir) (q : CellId) (vc : BitVec 3), farEnd r out = some (q, i) → q ≠ r → (out = .edge → vc.toNat % 2 = 0) →
        let y := (s.cell q).router
        let k := 8 * dirNat i + vc.toNat
        0 < y.freed.get 0 k → ∃ t, exec (.creditReturn r out vc) s = .next t ∧
          (t.cell r).router = { x with used := x.used.set (8 * dirNat out + vc.toNat) (x.inUse (dirNat out) vc.toNat - 1) } ∧
          (t.cell q).router = { y with freed := y.freed.set k (y.freed.get 0 k - 1) } ∧ ∀ h, h ≠ r → h ≠ q → t.cell h = s.cell h) ∧
      (∀ (out : Dir) (vc : BitVec 3), let k := 8 * dirNat out + vc.toNat
        s.creditsBack r out vc.toNat ≠ 0 → farEnd r out = none → ∃ t, exec (.creditReturn r out vc) s = .next t ∧ s.sameBut t r ∧
          (t.cell r).router = { x with used := x.used.set k (x.used.get 0 k - 1) })) ∧
  ∀ (x : Router) (r : CellId),
    (∀ (o i : Nat) (f : Flit) (rest : List Flit), i < 6 → let v := channelOf f
      x.buf i v = f :: rest → (∀ j w, (j, w) ≠ (i, v) → j < 6 → w < 6 → x.buf j w = []) → dirNat (routeDir r f.dst) = o →
      x.inUse o v < linkDepth o →
        (x.sendOne r o).buf i v = rest ∧ (x.sendOne r o).inUse o v = x.inUse o v + 1 ∧
          (x.sendOne r o).wire.get [] (8 * o + v) = (if o = 5 then x.wire.get [] (8 * o + v) else x.wire.get [] (8 * o + v) ++ [f]) ∧
          ((farEnd r (dirOf i)).isSome = true → (i = 4 → v % 2 = 0) →
            (x.sendOne r o).freed.get 0 (8 * i + v) = x.freed.get 0 (8 * i + v) + 1)) ∧
    ∀ (o : Nat) (a b c : Nat × Nat), x.contend r o 2 = [c] →
      (x.contend r o 0 = [a] → x.winner r o = some a) ∧
      (x.contend r o 0 = [] → x.contend r o 1 = [b] → x.winner r o = some (if 15 ≤ x.tideWait.get 0 o then c else b)) ∧
      (x.contend r o 0 = [] → x.contend r o 1 = [] → x.winner r o = some c)

/-- R315, R322 to R326, R333: a write into a queue's window, in order and within its credits, adds its bytes to the ring; 64 bytes that make a
header of the queue's generation without payload are taken as a packet, stamped with the time of their arrival, and their ring bytes freed; a header
of more than 1 MiB makes the queue FAULT, and its ring bytes are freed too. Out of order or beyond the credits the queue becomes FAULT; in another
state of the queue, or from another port, the write is dropped and counted. -/
def Obligations.RingWriteResults : Prop :=
  ∀ (p : PortId) (q : QueueId) (off : BitVec 16) (bytes : List Byte) (s : State), s.barOpen p = true →
    let x := s.queue q
    let opened := (s.pport p).st = 2 ∧ x.port = some p ∧ x.st = 1
    let inOrder := off.toNat = x.pos % 0x10000 ∧ x.pos + bytes.length - x.head ≤ x.credits * 64
    ∃ t, exec (.ringWrite p q off bytes) s = .next t ∧ t.hbm = s.hbm ∧ t.disp.cmds = s.disp.cmds ∧
      (∀ q', q' ≠ q → t.queue q' = s.queue q') ∧
      (opened → inOrder → (x.ring ++ bytes).length < 64 →
        t.queue q = { x with ring := x.ring ++ bytes, pos := x.pos + bytes.length,
                             arrived := x.arrived ++ [(x.pos + bytes.length, s.time.track)] }) ∧
      (let h := bytesDw 8 bytes
       let k : Pkt := { hdr := h, mode := .buffer, got := [], left := 0, at' := s.time.track, freed := 0, torn := false }
       opened → inOrder → x.ring = [] → x.arrived = [] → x.cur = none → bytes.length = 64 → hdrGen h = x.gen.toNat → x.gen ≠ 0 →
         hdrOpcode h ≠ 1 → (t.queue q).ring = [] ∧ (t.queue q).pos = x.pos + 64 ∧ (t.queue q).head = x.head + 64 ∧
           (t.queue q).cfg = x.next.getD x.cfg ∧ (hdrPlen h = 0 → (t.queue q).st = 1 ∧ (t.queue q).cur = some k) ∧
           (0x100000 < hdrPlen h → (t.queue q).st = 2 ∧ (t.queue q).cur = none)) ∧
      (opened → ¬ inOrder → (t.queue q).st = 2 ∧ (t.queue q).ring = [] ∧ (t.queue q).nextSeq = x.nextSeq) ∧
      (¬ opened → t.queue q = x ∧ (t.pport p).wdrop.toNat = min 0xFFFF ((s.pport p).wdrop.toNat + 1))

/-- R333, R336, R337, R339: a whole packet that passes every check is accepted as a command, in sequence; a wrong check code rejects it and the next
sequence is expected. A RUN that waits takes a free slot. The dispatcher admits control before comet before tide, and tide after fifteen comet
admissions that it waited through; each admission takes an arbiter sequence number, and the stamp of the first hub cycle that has a place for it. -/
def Obligations.PacketResults : Prop :=
  ∀ (q : QueueId) (s : State), s.hubOn = true → s.clk.frozen = false →
    let x := s.queue q
    (∀ (k : Pkt) (p : PortId), x.cur = some k → x.port = some p → x.ring = [] → k.left = 0 → k.mode = .buffer →
      let h := k.hdr
      (packetCheck h k.got = hdrCheck h → hdrSeq h = x.nextSeq.toNat → hdrVersion h = (s.pport p).agreed.toNat → hdrBad h q = false →
        hdrClass h = clsNat x.cls → opcodeOk (hdrOpcode h) (hdrClass h) = true → hdrOpcode h ≠ 1 →
        ∃ t c, exec (.commandPacket q) s = .next t ∧ t.disp.cmds = s.disp.cmds ++ [c] ∧ t.disp.nextId = s.disp.nextId + 1 ∧
          t.queue q = { x with nextSeq := x.nextSeq + 1, lastSeq := x.nextSeq, cur := none } ∧ c.id = s.disp.nextId ∧ c.hdr = h ∧
          c.payload = k.got ∧ c.port = p ∧ c.epoch = (s.pport p).epoch ∧ c.queue = q ∧ c.cls = x.cls ∧ c.stage = .accepted ∧
          c.deadline = (if hdrDlv h then some (fullTime (hdrDeadline h) k.at') else none) ∧
          c.start = (if hdrSched h then some (fullTime (hdrStart h) k.at') else none) ∧ c.released = false ∧ c.departed = false ∧
          t.cells = s.cells) ∧
      (packetCheck h k.got ≠ hdrCheck h → ∃ t, exec (.commandPacket q) s = .next t ∧ t.disp.cmds = s.disp.cmds ∧
        (t.queue q).cur = none ∧ (t.queue q).nextSeq = x.nextSeq + 1 ∧ t.cells = s.cells)) ∧
    (∀ (k : Pkt) (e : List Word64) (y : Slot), x.cur = some k → x.ring = [] → k.mode = .waitSlot → s.disp.entry (hdrKernel k.hdr) = some e →
      s.freeSlot e = some y → exec (.slotTake q) s =
        .next ((s.takeSlot y).updQueue q fun x => { x with cur := some { k with mode := .toSlot y } })) ∧
    (∀ a b : Cmd, s.disp.cmds = [a, b] → a.id ≠ b.id → a.queue ≠ b.queue → a.stage = .accepted → b.stage = .accepted →
      ∃ t, exec .packetAdmit s = .next t ∧ t.cells = s.cells ∧ t.queues = s.queues ∧ t.disp.arbSeq = s.disp.arbSeq + 1 ∧
        let go (c : Cmd) : Cmd :=
          { c with stage := .admitted, order := s.disp.nextOrder, admittedAt := s.arbStamp (max s.clk.hc s.disp.admitHc),
                   endAt := s.arbStamp (max s.clk.hc s.disp.admitHc), arb := s.disp.arbSeq }
        (((a.cls = .control ∧ b.cls ≠ .control) ∨ (a.cls = .comet ∧ b.cls = .tide ∧ s.disp.tideWait < 15) ∨
            (a.cls = .tide ∧ b.cls = .comet ∧ 15 ≤ s.disp.tideWait)) → t.disp.cmds = [go a, b]))

/-! Commands of the hub. -/

/-- R314, R328, R329, R331, R340, R341, R345, R347, R350, R351, R359, R432, R475, R476, R478: what an admitted control command does, when it is the
only command: nothing while SCHED holds it; then its effect, and its completion, stamped with its admission or with its start, or, of a TAKEOVER or
GIVEBACK that is taken, with the event by which it completes; it goes to CADDR after any result bytes, or is discarded and counted when its port's
epoch has gone. In a frozen module NOP, TIME and ECLIPSE complete after the release. The report of the ATTEST that is being built is its result, and
one that a record has touched completes HW_ERROR (R342, R436). A write into host memory is split at the maximum payload size and at 4 KiB
boundaries. -/
def Obligations.ControlCommandResults : Prop :=
  (
    ∀ (s : State) (c : Cmd), s.hubOn = true → s.disp.cmds = [c] → c.stage = .admitted → hdrIrq c.hdr = false → c.touched = none → c.answer = none →
      (c.start ≠ none → c.released = false → ∀ i ∈ [Instr.nop, .qconfig, .takeover, .giveback, .time, .attest, .eclipseSchedule,
        .eclipseCancel, .eclipseRelease], exec i s = .next s) ∧
      ((c.start = none ∨ c.released = true) →
      let op := hdrOpcode c.hdr
      let dw := bytesDw 4 c.payload
      let d (i : Nat) : Nat := (dw.getD i 0).toNat
      let adm := c.admittedAt.toNat
      let began := c.endAt.toNat
      let event := (s.arbStamp s.clk.hc).toNat
      let done (t : State) (status detail : Nat) (result : List Byte) (at' : Nat) : Prop :=
        t.disp.cmds = [] ∧ t.disp.out = s.disp.out ++
          s.posts c.port (hdrCaddr c.hdr + 32) (result.take (hdrRlenMax c.hdr)) ++
          s.posts c.port (hdrCaddr c.hdr) (c.comp status detail 0 (min (hdrRlenMax c.hdr) result.length)
            (decide (hdrRlenMax c.hdr < result.length)) at').bytes
      let ends (t : State) (status detail : Nat) : Prop :=
        if s.clk.frozen then t.disp.cmds = [{ c with answer := some (status, detail) }] ∧ t.disp.out = s.disp.out
        else done t status detail [] began
      (s.mayComplete c = false → op = 2 → s.clk.frozen = false → ∃ t, exec .nop s = .next t ∧ t.disp.cmds = [] ∧ t.disp.out = s.disp.out ∧
        (t.pport c.port).cdrop.toNat = min 0xFFFF ((s.pport c.port).cdrop.toNat + 1)) ∧
      (s.mayComplete c = true →
        (op = 2 → ∃ t, exec .nop s = .next t ∧ ends t 0 0 ∧ t.cells = s.cells ∧ t.queues = s.queues) ∧
        (op = 0x10 → s.clk.frozen = false →
          (c.payload.length ≠ 32 → ∃ t, exec .qconfig s = .next t ∧ done t 0x11 0 [] began ∧ t.queues = s.queues) ∧
          (c.payload.length = 32 →
            let q : QueueId := BitVec.ofNat 10 (d 0)
            let cfg : QCfg := { vector := BitVec.ofNat 6 (d 0 / 2 ^ 10), craddr := dw.getD 1 0, erraddr := dw.getD 2 0 }
            ((s.queue q).port ≠ some c.port → ∃ t, exec .qconfig s = .next t ∧ done t 0x18 q.toNat [] began ∧ t.queues = s.queues) ∧
            ((s.queue q).port = some c.port → ∃ t, exec .qconfig s = .next t ∧ done t 0 (t.queue q).gen.toNat [] began ∧
              (t.queue q).next = some cfg ∧ (∀ q', q' ≠ q → t.queue q' = s.queue q') ∧
              (d 0 / 2 ^ 16 % 2 = 0 → t.queue q = { s.queue q with next := some cfg }) ∧
              (d 0 / 2 ^ 16 % 2 = 1 → (t.queue q).st = 1 ∧ (t.queue q).gen = nextGen (s.queue q).gen ∧ (t.queue q).nextSeq = 0 ∧
                (t.queue q).head = 0 ∧ (t.queue q).pos = 0 ∧ (t.queue q).ring = [])))) ∧
        (s.clk.frozen = false → s.queues.sorted = true → (∀ e ∈ s.queues, e.1 < 1024) →
          let o := s.pport (otherPort c.port)
          let moved (t : State) (p : PortId) (which : Queue → Prop) : Prop :=
            (∀ q, which (s.queue q) → t.queue q = { (s.queue q).openQ with owner := BitVec.ofNat 2 p.toNat, cfg := .reset,
                                                                           next := none, cur := none }) ∧
              ∀ q, ¬ which (s.queue q) → t.queue q = s.queue q
          (op = 0x11 →
            (o.up = true ∨ s.msSince o.downAt < s.disp.downms.toNat → ∃ t, exec .takeover s = .next t ∧
              done t 0x19 (if o.up then 0 else s.msSince o.downAt) [] began ∧ t.queues = s.queues) ∧
            (o.up = false → s.disp.downms.toNat ≤ s.msSince o.downAt → ∃ t, exec .takeover s = .next t ∧
              (let l := s.queues.filter fun e => e.2.port == some (otherPort c.port)
               done t 0 l.length (l.flatMap fun e => dwBytes [w64 (e.1 + (nextGen e.2.gen).toNat * 2 ^ 10), w64 e.2.lastSeq.toNat]) event) ∧
              moved t c.port (fun x => x.port = some (otherPort c.port)) ∧ t.disp.arbSeq = s.disp.arbSeq + 1)) ∧
          (op = 0x12 →
            (o.st ≠ 2 → ∃ t, exec .giveback s = .next t ∧ done t 0x1A 0 [] began ∧ t.queues = s.queues) ∧
            (o.st = 2 → ∃ t, exec .giveback s = .next t ∧ t.disp.arbSeq = s.disp.arbSeq + 1 ∧
              (let l := s.queues.filter fun e => e.2.port == some c.port && e.2.home.toNat == (otherPort c.port).toNat
               done t 0 0 (l.flatMap fun e => dwBytes [w64 (e.1 + (nextGen e.2.gen).toNat * 2 ^ 10), w64 e.2.lastSeq.toNat]) event) ∧
              moved t (otherPort c.port) (fun x => x.port = some c.port ∧ x.home.toNat = (otherPort c.port).toNat)))) ∧
        (op = 0x13 →
          (timeBad dw c.payload.length = true → ∃ t, exec .time s = .next t ∧ ends t 0x11 0 ∧ t.time = s.time) ∧
          (timeBad dw c.payload.length = false → ∃ t, exec .time s = .next t ∧ ends t 0 (t.time.stat % 2 ^ 16) ∧
            t.time.track = s.time.track ∧ t.time.inc = s.time.inc ∧
            (s.time.msgOrder ≤ c.order → t.time.mode.toNat = d 0 % 4 ∧ t.time.xtime = dw.getD 1 0 ∧ t.time.ptmns = dw.getD 2 0 ∧
              (d 0 % 4 = 1 → t.time.edgeAt = if s.time.mode = 1 then s.time.edgeAt else s.clk.hc)) ∧
            (c.order < s.time.msgOrder → t.time = s.time))) ∧
        (op = 0x15 → s.clk.frozen = false →
          (hdrPlen c.hdr ≠ 32 → ∃ t, exec .attest s = .next t ∧ done t 0x11 0 [] began) ∧
          (hdrPlen c.hdr = 32 → exec .attest s = .next { s with disp := { s.disp with cmds := [{ c with stage := .building }] } })) ∧
        (op = 0x14 → c.payload.length = 32 → d 3 = 0 →
          let detail (t : State) : Nat := t.stops.st.toNat + b2n t.stops.immed * 4 + b2n t.stops.snapdone * 8 + b2n t.stops.partial' * 16
          (d 0 = 1 → s.stops.st ≠ 2 → (d 2 = 0 ∨ d 1 < d 2) →
            (adm + 2048 ≤ d 1 → ∃ t, exec .eclipseSchedule s = .next t ∧ ends t 0 (detail t) ∧
              t.stops = { s.stops with st := 1, tick := dw.getD 1 0, rel := dw.getD 2 0 }) ∧
            (d 1 < adm + 2048 → ∃ t, exec .eclipseSchedule s = .next t ∧ ends t 1 0 ∧ t.stops = s.stops)) ∧
          (d 0 = 2 → d 1 = 0 → d 2 = 0 → ∃ t, exec .eclipseCancel s = .next t ∧ ends t 0 (detail t) ∧
            t.stops = if s.stops.st = 1 then { s.stops with st := 0 } else s.stops) ∧
          (d 0 = 3 → d 1 = 0 → d 2 = 0 → s.stops.st = 2 → s.stops.cut = none → s.disp.portDue = [] → (∀ q, (s.queue q).ring = []) → ∃ t, exec .eclipseRelease s = .next t ∧
            done t 0 (detail t) [] began ∧ t.stops = { s.stops with st := 0 } ∧ t.clk = { s.clk with frozen := false }))))) ∧
  (
    ∀ (s : State) (c : Cmd), s.dispOn = true → s.disp.cmds = [c] → c.stage = .building → hdrIrq c.hdr = false → s.mayComplete c = true →
      ∃ t, exec .attestReportDone s = .next t ∧ t.disp.cmds = [] ∧ t.cells = s.cells ∧
        (∀ n : Word32, c.touched = some n → t.disp.out = s.disp.out ++
          s.posts c.port (hdrCaddr c.hdr) (c.comp 7 (n.toNat % 2 ^ 16) 0 0 false s.time.track.toNat).bytes) ∧
        ∀ bs, s.report c = bs → bs.length = 256 + (s.flash.directory s.boot.slot).length + 7856 → c.touched = none →
          t.disp.out = s.disp.out ++ s.posts c.port (hdrCaddr c.hdr + 32) (bs.take (hdrRlenMax c.hdr)) ++ s.posts c.port (hdrCaddr c.hdr)
            (c.comp 0 0 0 (min (hdrRlenMax c.hdr) bs.length) (decide (hdrRlenMax c.hdr < bs.length)) s.time.track.toNat).bytes) ∧
  ∀ (s : State) (p : PortId) (addr : Nat) (bs : List Byte), let l := s.posts p addr bs
    l.flatMap HostWrite.bytes = bs ∧
      (∀ w ∈ l, w.port = p ∧ w.bytes ≠ [] ∧ w.bytes.length ≤ 128 * 2 ^ (s.pport p).mps.toNat ∧ w.addr % 4096 + w.bytes.length ≤ 4096) ∧
      ∀ (a b : List HostWrite) (w : HostWrite), l = a ++ w :: b → w.addr = addr + (a.flatMap HostWrite.bytes).length

/-- R38 to R44, R111, R155, R335 to R345, R364, R368: the life of a RUN that is the only command: what becomes of it when nothing holds it, at its
START and at its deadline, which it does not reach while SCHED holds it to a later START; the rings of its other members after the payload's
acknowledgement, but for members that wait for their self-test; its ends; and its completion, with the leader's exit word and result bytes where it
ended by KEND, and with the lowest restart floor, the lowest cell that faulted, or the lowest with a mover error. -/
def Obligations.RunResults : Prop :=
  ∀ (s : State) (c : Cmd), s.dispOn = true → s.disp.cmds = [c] → hdrOpcode c.hdr = 1 → c.resets = [] → c.touched = none → c.answer = none →
    let n := s.groupNo c
    let gr := s.group n
    let now := s.time.track.toNat
    let stamp := s.arbStamp s.clk.hc
    let sent : Cmd := { c with stage := .sent, members := gr.orbit, later := gr.orbit.filter fun m => m != gr.leader }
    let room : Prop := gr.down = false ∧ ∀ m ∈ gr.orbit, s.ringsAt m < 4 ∧ s.testOverdue m = false
    let comp (status detail kstat rlen : Nat) (result : List Byte) (at' : Word64) : List HostWrite :=
      s.posts c.port (hdrCaddr c.hdr + 32) result ++
        s.posts c.port (hdrCaddr c.hdr) (c.comp status detail kstat result.length (decide (result.length < rlen)) at'.toNat).bytes
    let tells : Prop := s.mayComplete c = true ∧ hdrIrq c.hdr = false
    let ends (t : State) (status detail : Nat) (at' : Word64) : Prop :=
      t.disp.cmds = [] ∧ (tells → t.disp.out = s.disp.out ++ comp status detail 0 0 [] at')
    (c.stage = .admitted → (n = 0x7F ∨ gr.formed = false ∨ ((c.start = none ∨ c.released = true) ∧ room)) →
      ∃ t, exec .run s = .next t ∧ exec (.heldRunRelease c.id) s = .next t ∧ t.cells = s.cells ∧
        (n = 0x7F → ends t 0 0 c.endAt) ∧
        (n ≠ 0x7F → gr.formed = false → ends t 4 n c.endAt) ∧
        (n ≠ 0x7F → gr.formed = true → c.lateAt now = true → ends t 1 0 s.time.track) ∧
        (n ≠ 0x7F → gr.formed = true → c.lateAt now = false →
          t.disp.cmds = [sent] ∧ t.disp.flying = s.disp.flying ++ [(s.ringOf c).toward gr.leader] ∧ t.disp.out = s.disp.out ∧
            t.disp.acks = s.disp.acks ++ (if sent.later = [] then [] else [c.id]))) ∧
    (∀ T, c.stage = .admitted → c.start = some T → c.released = false → T ≤ now → (n = 0x7F ∨ gr.formed = false ∨ room) →
      ∃ t, exec (.scheduledStart c.id) s = .next t ∧ t.cells = s.cells ∧ t.disp.arbSeq = s.disp.arbSeq + 1 ∧
        (c.lateAt T = true → ends t 1 0 stamp) ∧
        (c.lateAt T = false → n = 0x7F → ends t 0 0 stamp) ∧
        (c.lateAt T = false → n ≠ 0x7F → gr.formed = false → ends t 4 n stamp) ∧
        (c.lateAt T = false → n ≠ 0x7F → gr.formed = true → c.lateAt now = true → ends t 1 0 s.time.track) ∧
        (c.lateAt now = false → n ≠ 0x7F → gr.formed = true → t.disp.cmds = [{ sent with released := true, endAt := stamp }] ∧
          t.disp.flying = s.disp.flying ++ [(s.ringOf c).toward gr.leader])) ∧
    (c.stage = .accepted ∨ c.stage = .admitted → c.lateAt now = true →
      let waits (T : Nat) : Prop := c.released = false ∧ c.start = some T
      (∀ T d, waits T → c.deadline = some d → d ≤ T → exec (.deadlineExpiry c.id) s = .next s) ∧
      ((∀ T d, waits T → c.deadline = some d → T < d ∧ c.stage = .accepted) →
      ∃ t, exec (.deadlineExpiry c.id) s = .next t ∧ t.cells = s.cells ∧ t.disp.arbSeq = s.disp.arbSeq + 1 ∧ ends t 1 0 stamp)) ∧
    (c.stage = .sent → s.disp.acks = [c.id] → exec (.payloadAck c.id) s = .next { s with disp :=
      { s.disp with cmds := [{ c with later := c.later.filter fun m => s.testOverdue m }], acks := [],
                    flying := s.disp.flying ++ (c.later.filter fun m => !s.testOverdue m).map fun m => (s.ringOf c).toward m } }) ∧
    (∀ (g : CellId) (exit : Word64) (mv : Option (BitVec 4)) (floor : BitVec 16) (rest : List CellMsg),
      (s.cell g).out = .ended c.id exit mv floor :: rest → (∀ at' k a b c, rest.head? ≠ some (.note at' k a b c)) →
      (∀ e ∈ c.ended, e.1 ≠ g) → ∃ t, exec (.kernelEndReport g) s = .next t ∧ (t.cell g).out = rest ∧ s.hbm = t.hbm ∧
        t.disp.cmds = [{ c with ended := c.ended ++ [(g, .kend exit mv floor)], endAt := stamp }] ∧ t.disp.arbSeq = s.disp.arbSeq + 1) ∧
    (∀ (g : CellId) (why : Byte) (floor : BitVec 16) (rest : List CellMsg), (s.cell g).out = .aborted (some c.id) why floor :: rest →
      (∀ at' k a b c, rest.head? ≠ some (.note at' k a b c)) → (∀ e ∈ c.ended, e.1 ≠ g) → ∃ t, exec (.abortReport g) s = .next t ∧ (t.cell g).out = rest ∧
        t.disp.cmds = [{ c with ended := c.ended ++ [(g, .aborted floor)], endAt := stamp }] ∧
        (∀ m ∈ c.members, m ≠ g → (∀ e ∈ c.ended, e.1 ≠ m) → (m, c.id) ∈ t.disp.ends) ∧ t.disp.arbSeq = s.disp.arbSeq + 1 ∧
        ∀ m ∈ c.members, (∀ r, (s.cell m).run = some r → r.cmd = c.id) → (t.cell m).vec.inbox = []) ∧
    (c.stage = .sent → (∀ m ∈ c.members, ∃ e ∈ c.ended, e.1 = m) → (c.ended.map Prod.fst).Nodup → (∀ r ∈ s.hubRecs, r.cmd ≠ some c.id) →
      ∃ t, exec (.commandComplete c.id) s = .next t ∧
        let aborts : Prop := ∃ e ∈ c.ended, ∃ f, e.2 = .aborted f
        let faulted (e : CellId × EndHow) : Prop := ∃ x mv f, e.2 = .kend x mv f ∧ x.getLsbD 63 = true
        let moved (e : CellId × EndHow) (k : BitVec 4) : Prop := ∃ x f, e.2 = .kend x (some k) f
        let verdict (status detail : Nat) : Prop :=
          (aborts ∧ status = 2 ∧ (∃ e ∈ c.ended, e.2.floor = detail) ∧ ∀ e ∈ c.ended, detail ≤ e.2.floor) ∨
          (¬ aborts ∧ status = 6 ∧ ∃ e ∈ c.ended, faulted e ∧ detail = e.1.toNat ∧ ∀ e' ∈ c.ended, faulted e' → e.1.toNat ≤ e'.1.toNat) ∨
          (¬ aborts ∧ (∀ e ∈ c.ended, ¬ faulted e) ∧ status = 5 ∧ ∃ e ∈ c.ended, ∃ k, moved e k ∧ detail = e.1.toNat + k.toNat * 2 ^ 8 ∧
            ∀ e' ∈ c.ended, ∀ k', moved e' k' → e.1.toNat ≤ e'.1.toNat) ∨
          (¬ aborts ∧ (∀ e ∈ c.ended, ¬ faulted e ∧ ∀ k, ¬ moved e k) ∧ status = 0 ∧ detail = 0)
        (∀ (y : Slot) (exit : Word64) (mv : Option (BitVec 4)) (f : BitVec 16), c.slot = some y → (y.leader, .kend exit mv f) ∈ c.ended →
          (s.cell y.leader).slice.bad = [] → let rlen := exit.toNat % 2 ^ 32
          t.disp.cmds = [] ∧ t.disp.busySlots = (s.disp.busySlots.filter fun b => !(b.1 == y.leader && b.2 == y.off)) ∧
            ∀ status detail, verdict status detail → tells → t.disp.out = s.disp.out ++ comp status detail (exit.toNat / 2 ^ 32 % 2 ^ 16)
              rlen ((s.cell y.leader).slice.readBytes y.off (min rlen (min (hdrRlenMax c.hdr) y.size))) c.endAt) ∧
        ((∀ y, c.slot = some y → ∀ e ∈ c.ended, e.1 = y.leader → ∀ exit mv f, e.2 ≠ .kend exit mv f) →
          ∀ status detail, verdict status detail → ends t status detail c.endAt))

/-- R39, R40, R43, R60, R158, R219, R222, R223, R338: a ring reaches its cell; a launch gives the pilot its entry, its stack pointer and its eight
arguments, clears every other register, the floating-point and vector state, and has its first instruction 38 cc later; the hub's end of a command
aborts the member's passes that have not begun to commit with cause GROUP, and pends HUBREQ. -/
def Obligations.LaunchAndEndResults : Prop :=
  ∀ (g : CellId) (s : State),
    let c := s.cell g
    (∀ (f : RingFlight) (rest : List RingFlight), s.dispOn = true → s.cellDown g = false → s.disp.flying = f :: rest → f.cell = g →
      exec (.ring g f.ring.cmd) s =
        .next ({ s with disp := { s.disp with flying := rest } }.updCell g fun c => { c with rings := c.rings ++ [f.ring] })) ∧
    (∀ (r : Ring) (rest : List Ring), s.live g = true → c.rings = r :: rest → c.pil.mode = .idle → c.id.selfTest = none →
      ∃ t, exec (.kernelLaunch g) s = .next t ∧ s.hbm = t.hbm ∧ (∀ h, h ≠ g → t.cell h = s.cell h) ∧
        let d := t.cell g
        d.rings = rest ∧ d.pil.mode = .kernel ∧ d.pil.pc = r.entry ∧ d.pil.next = max (s.clk.cc + 38) (c.windowSettled s.clk.cc + 6) ∧
          d.pil.readS 2 = r.sp ∧ (∀ i < 8, d.pil.readS (BitVec.ofNat 5 (i + 6)) = r.args.getD i 0) ∧
          (∀ q : BitVec 5, q.toNat < 2 ∨ (2 < q.toNat ∧ q.toNat < 6) ∨ 13 < q.toNat → d.pil.readS q = 0) ∧ (∀ q, d.pil.readW q = 0) ∧
          d.exc.pl = false ∧ d.exc.im = false ∧ d.exc.pim = false ∧ d.fp.prm = 0 ∧ d.fp.vrm = 0 ∧ d.fp.pil = 0 ∧ d.fp.vec = 0 ∧ d.fp.drn = 0 ∧
          (let x : Word32 := r.seed ^^^ BitVec.ofNat 32 (r.kernel.toNat * 0x10001) ^^^ BitVec.ofNat 32 (g.toNat * 0x1010101)
           d.fp.srv = (if x = 0 then 1 else x)) ∧ d.fp.srd = d.fp.srv.rotateLeft 16 ∧ d.pil.wbs = [] ∧ d.pil.micros = [] ∧ d.pil.seq = none ∧
          (∀ q, d.vec.reg q = 0) ∧ d.vec.vl = 0 ∧ d.vec.vt = 0 ∧
          d.arr.restart = r.restart ∧ d.arr.done = 0 ∧ d.mov.issued = 0 ∧ d.run.map Running.cmd = some r.cmd ∧ d.ls = c.ls ∧
          d.win = c.win ∧ d.slice = c.slice ∧ d.mbox = c.mbox) ∧
    (∀ (cmd : Nat), s.dispOn = true → s.cellDown g = false → (g, cmd) ∈ s.disp.ends → c.run.map Running.cmd = some cmd →
      ∃ t, exec (.hubEndCommand g cmd) s = .next t ∧ (g, cmd) ∉ t.disp.ends ∧ (t.cell g).exc.hubreq = true ∧
        (t.cell g).out = c.out ++ [.aborted (some cmd) 0x06 c.arr.floor] ∧ (t.cell g).pil = c.pil ∧ (∀ h, h ≠ g → t.cell h = s.cell h) ∧
        ∃ rest, c.arr.passes = (t.cell g).arr.passes ++ rest ∧ (∀ p ∈ (t.cell g).arr.passes, p.stage = .committing) ∧
          (rest ≠ [] → (∀ p ∈ rest.head?, p.stage ≠ .committing) ∧ (t.cell g).exc.pabort = true ∧ (t.cell g).arr.abortCause = 0x06))

/-! Ports and time. -/

/-- R312, R315, R318, R320 to R322, R348, R349, R487: a link comes up and offers its version; a version that both accept is agreed, and opens the
port's queues, and another is refused; a departure, PERST# or a Function Level Reset drops what the host had under way but for commands that are
sent, whose completions are discarded; in a frozen module a port still leaves L0, and its event waits for the release; no link comes up in PHASE 0
or under PERST#. -/
def Obligations.PortResults : Prop :=
  ∀ (p : PortId) (s : State),
    let x := s.pport p
    let st : BitVec 2 := if s.boot.ready then 1 else 0
    let left (t : State) : Prop :=
      (∀ c ∈ t.disp.cmds, ∃ d ∈ s.disp.cmds, (d.port ≠ p ∧ c = d) ∨ (d.port = p ∧ d.stage = .sent ∧ c = { d with departed := true })) ∧
        ((s.disp.cmds.map Cmd.id).Nodup → ∀ c ∈ s.disp.cmds, (c.port ≠ p → c ∈ t.disp.cmds) ∧
          (c.port = p → c.stage = .sent → { c with departed := true } ∈ t.disp.cmds)) ∧
        (∀ q, (s.queue q).port = some p → (t.queue q).ring = [] ∧ (t.queue q).cur = none ∧ (t.queue q).gen = (s.queue q).gen) ∧
        t.cells = s.cells ∧ t.pport (otherPort p) = s.pport (otherPort p) ∧ t.disp.arbSeq = s.disp.arbSeq + 1
    let gone : PciPort := { x with up := false, speed := 0, width := 0, downAt := s.clk.hc, st := 0, agreed := 0 }
    (∀ (r : LinkRate) (mps : BitVec 2), s.dispOn = true → x.up = false → x.perst = false → s.boot.phase ≠ 0 →
      ∃ t, exec (.linkUp p r mps) s = .next t ∧
        t.pport p = { x with up := true, speed := r.speed, width := r.width, mps := mps, st := st, agreed := 0 } ∧
        t.queues = s.queues ∧ t.cells = s.cells ∧ t.disp.arbSeq = s.disp.arbSeq + 1) ∧
    (s.dispOn = true → x.up = true →
      (∃ t, exec (.linkDown p) s = .next t ∧ t.pport p = gone ∧ left t) ∧
      (∃ t, exec (.flr p) s = .next t ∧ t.pport p = { x with st := st, agreed := 0 } ∧ left t) ∧
      ∃ t, exec (.perstAssert p true) s = .next t ∧ t.pport p = { gone with perst := true } ∧ left t) ∧
    (exec (.perstAssert p false) s = .next (s.updPport p fun x => { x with perst := false })) ∧
    (∀ (r : LinkRate) (mps : BitVec 2), s.hubOn = true → x.up = false → x.perst = true ∨ s.boot.phase = 0 → exec (.linkUp p r mps) s = .next s) ∧
    (s.hubOn = true → s.clk.frozen = true → x.up = true → ∃ t, exec (.linkDown p) s = .next t ∧ t.pport p = gone ∧ t.cells = s.cells ∧
      t.disp.arbSeq = s.disp.arbSeq ∧ t.disp.portDue = s.disp.portDue ++ [(p, 2)]) ∧
    (∀ v : Word32, s.barOpen p = true → x.st = 1 → v.getLsbD 16 = true →
      let hmax := v.toNat % 256
      let hmin := v.toNat / 256 % 256
      let a := min hmax 0x32
      ∃ t, exec (.versionGo p v) s = .next t ∧ (t.pport p).hmax.toNat = hmax ∧ (t.pport p).hmin.toNat = hmin ∧ t.cells = s.cells ∧
        (hmin ≤ a → 0x20 ≤ a → (t.pport p).st = 2 ∧ (t.pport p).agreed.toNat = a ∧ (t.pport p).epoch = x.epoch + 1 ∧
          ∀ q, t.queue q = if (s.queue q).port = some p then (s.queue q).openQ else s.queue q) ∧
        (a < hmin ∨ a < 0x20 → (t.pport p).st = 3 ∧ t.queues = s.queues)) ∧
    (∀ d : Bool, s.hubOn = true → x.up = true → exec (.d3hot p d) s = .next (s.updPport p fun x => { x with d3 := d }))

/-- R357, R361 to R365, R369, R374: a pulse or a dialogue that is due samples track time, and its correction, a set, a step or the INC of the loop
held within 1000 ppm, waits 64 hc; a lost reference sets its flags; a change moves track time and INC in the hub cycle in which it is due, and a
step is counted and numbered by the arbiter; the 1PPS output follows the seconds; WRAP is noted once. -/
def Obligations.TimeResults : Prop :=
  ∀ s : State, s.hubOn = true →
    let x := s.time
    let sampled (t : State) (e : Int) (ms : Nat) : Prop :=
      t.time.track = x.track ∧ t.time.inc = x.inc ∧ t.time.holdover = false ∧ t.time.lasterr = max (-(2 ^ 31 - 1)) (min (2 ^ 31 - 1) e) ∧
        (x.isSet = false → t.time.changes = x.changes ++ [⟨s.clk.hc + 64, e, true, false, none, 0⟩]) ∧
        (x.isSet = true → (x.steplim.toNat : Int) ≤ e → t.time.locked = false ∧
          t.time.changes = x.changes ++ [⟨s.clk.hc + 64, e, false, true, none, 0⟩]) ∧
        (x.isSet = true → e < x.steplim.toNat →
          let i0 : Int := x.inc0.toNat
          let ff : Int := if -(x.steplim.toNat : Int) < e then x.ff + e / 16 else x.ff
          let i := i0 + Int.tdiv ((ff + e / 4) * 2 ^ 32) (1800000 * ms)
          t.time.ff = ff ∧ t.time.changes = x.changes ++
            [⟨s.clk.hc + 64, 0, false, false, some (BitVec.ofInt 32 (min (i0 + i0 / 1000) (max (i0 - i0 / 1000) i))), 0⟩]) ∧
        (64 < e.natAbs → t.time.locked = false) ∧ (e.natAbs ≤ 16 → 3 ≤ x.goodRun → e < x.steplim.toNat → t.time.locked = true) ∧
        t.cells = s.cells ∧ t.clk = s.clk
    (x.mode = 1 →
      (∃ t, exec .ppsEdge s = .next t ∧ sampled t (x.target - x.track).toInt 1000 ∧ t.time.ppscap = x.track ∧ t.time.target = x.target + 2 ^ 30 ∧
        t.time.edgeAt = s.clk.hc) ∧
      (x.edgeAt + 2700000000 ≤ s.clk.hc → exec .ppsloss s = .next { s with time := { x with ppsloss := true, holdover := true } })) ∧
    (x.mode = 2 →
      let due : Prop := ∀ h, x.ptmAt = some h → h + x.period.toNat * 1800000 ≤ s.clk.hc
      let fails (i : Instr) : Prop := ∃ t, exec i s = .next t ∧ t.cells = s.cells ∧
        t.time = { x with ptmerr := true, badRun := x.badRun + 1, holdover := x.holdover || decide (3 ≤ x.badRun + 1), ptmAt := some s.clk.hc }
      (¬ due → (∀ k : PtmTimes, exec (.ptmDialogue k) s = .next s) ∧ exec .ptmerr s = .next s) ∧
      (due → fails .ptmerr ∧ ∀ k : PtmTimes,
        ((s.pport x.port).up = false ∨ 10000 < k.roundTrip.toNat → fails (.ptmDialogue k)) ∧
        ((s.pport x.port).up = true → k.roundTrip.toNat ≤ 10000 → ∃ t, exec (.ptmDialogue k) s = .next t ∧ t.time.ptmAt = some s.clk.hc ∧
          let m : Word64 := k.received - BitVec.ofNat 64 ((k.roundTrip.toNat - k.turnaround.toNat) / 2)
          sampled t (x.xtime + BitVec.ofInt 64 (roundDiv ((m - x.ptmns).toInt * 2 ^ 30) 1000000000) - x.track).toInt x.period.toNat))) ∧
    (∀ (c : TimeChange) (rest : List TimeChange), x.changes = c :: rest →
      (c.due ≤ s.clk.hc → x.frac < 2 ^ 32 → (∀ d ∈ rest.head?, s.clk.hc < d.due) → ∃ t, exec .timeChangeApply s = .next t ∧
        t.time.track = x.track + BitVec.ofInt 64 c.add ∧ t.time.inc = c.inc.getD (BitVec.ofInt 32 (x.inc.toNat + c.move)) ∧
        t.time.changes = rest ∧ t.time.set = (x.set || c.first) ∧ t.time.stepped = (x.stepped || c.stepped) ∧
        t.time.steps.toNat = (if c.stepped then min 0xFFFF (x.steps.toNat + 1) else x.steps.toNat) ∧ t.cells = s.cells ∧ t.clk = s.clk ∧
        t.disp.arbSeq = if c.stepped then s.disp.arbSeq + 1 else s.disp.arbSeq) ∧
      (s.clk.hc < c.due → s.clk.phase < 128 → s.clk.d ≠ 0 → s.cells = [] → s.opt.ports = [] → (∀ d ∈ rest.head?, c.due + 1 < d.due) →
        ∃ t, exec .timeChangeApply s = .next t ∧ c.due ≤ t.clk.hc ∧ t.clk.hc ≤ c.due + 1 ∧
          t.time = { ((x.tick (c.due - s.clk.hc)).apply c).tick (t.clk.hc - c.due) with changes := rest })) ∧
    (x.track.toNat / 2 ^ 40 ≠ x.wrapSeen → ∃ t, exec .wrap s = .next t ∧ t.time = { x with wrapSeen := x.track.toNat / 2 ^ 40 } ∧
      t.cells = s.cells) ∧
    (let sec := x.track.toNat / 2 ^ 30
     (x.set = true → sec ≠ x.secSeen → exec .ppsOutEdge s = .next { s with time := { x with ppsOut := true, secSeen := sec } }) ∧
     (x.set = true → sec = x.secSeen → x.ppsOut = true → 0x06666666 ≤ x.track.toNat % 2 ^ 30 →
       exec .ppsOutEdge s = .next { s with time := { x with ppsOut := false } }))

/-! Optics and pages. -/

/-- R370, R371, R380, R382 to R390, R396, R418: an optical port with nothing else under way takes the one packet it has received: HELLO and
HELLO_ACK agree a version and start 64 exchanges or bring the port down, a PROBE is answered with the times of its arrival, a PROBE_REPLY goes into
the measurement, whose last one brings the port up and fills its Ephemeris entry with the lower median, the least round trip and the bound of its 64
or 8 exchanges; an orbit packet goes to its cell or is counted. A frame that is bad or out of sequence is answered with NAK; a good one is
acknowledged and its packet kept. Retraining, after which a measurement that it broke off goes on, the repeated measurement and the load curves are
as their rules say. -/
def Obligations.OpticalResults : Prop :=
  ∀ (p : LinkId) (s : State), s.dispOn = true →
    let x := s.opt.port p
    let h (k : OptPkt) : Nat := k.head.toNat
    let quiet : Prop := x.linked = true ∧ x.retrain = none ∧ x.cls = [] ∧ x.replay = []
    let fseq (w : BitVec 80) : BitVec 12 := w.extractLsb' 0 12
    let fack (w : BitVec 80) : BitVec 12 := w.extractLsb' 12 12
    let sends (t : State) (head : FlitBits) : Prop :=
      ∃ o, t.opt.sent = s.opt.sent ++ [(p.toNat, o)] ∧ o.slots = [(.control, head)] ∧ fseq o.ctl = x.nextSeq ∧ fack o.ctl = x.expect - 1 ∧
        o.ctl.getLsbD 24 = x.nak ∧ o.ctl.extractLsb' 26 2 = x.crv ∧ o.ctl.extractLsb' 40 40 = 1 ∧
        (t.opt.port p).replay = [⟨x.nextSeq, [(.control, head)]⟩] ∧ (t.opt.port p).nextSeq = x.nextSeq + 1
    let probe (n : Nat) : FlitBits := s.peerHeader p 0x40 (s.time.track.toNat * 2 ^ 128 + n * 2 ^ 320)
    let down (t : State) (why : BitVec 4) : Prop :=
      (t.opt.port p).up = false ∧ (t.opt.port p).linked = false ∧ (t.opt.port p).why = why ∧ ∃ e, t.hubRecs = s.hubRecs ++ [e] ∧
        e.mech = 0x10 ∧ e.action = 0x06 ∧ e.unit.toNat = p.toNat
    (quiet → x.up = true → x.meas = none → (s.opt.eph.get .reset p.toNat).at' + 1800000000 ≤ s.clk.hc →
      ∃ t, exec (.ephemerisRepeat p) s = .next t ∧ (t.opt.port p).meas = some ⟨8, [(0, s.time.track)], []⟩ ∧ sends t (probe 0)) ∧
    (∀ k : OptPkt, quiet → x.rx = [k] → k.cls = .control → x.up = false →
      (h k % 256 = 0x30 → ∃ t, exec (.hello p) s = .next t ∧
        let same := h k / 2 ^ 80 % 2 ^ 32 = s.opt.chainid.toNat ∧ h k / 2 ^ 112 % 2 ^ 16 = x.cfg.peerMod.toNat ∧
          h k / 2 ^ 128 % 4 = x.cfg.peerRole.toNat ∧ h k / 2 ^ 130 % 8 = x.cfg.peerPort.toNat
        let v := min 0x32 (h k / 2 ^ 64 % 256)
        let a := if 0x30 ≤ v ∧ h k / 2 ^ 72 % 256 ≤ v then v else 0
        (¬ same → down t 4) ∧
        (same → x.ack = none → (t.opt.port p).formed = some (BitVec.ofNat 8 a) ∧ (t.opt.port p).peermod = x.cfg.peerMod ∧
          (t.opt.port p).peerport = x.cfg.peerPort ∧ sends t (s.peerHeader p 0x31 (a * 2 ^ 64)))) ∧
      (h k % 256 = 0x31 → ∃ t, exec (.helloAck p) s = .next t ∧
        let w : Byte := BitVec.ofNat 8 (h k / 2 ^ 64)
        (x.formed = none → (t.opt.port p).ack = some w ∧ (t.opt.port p).up = false) ∧
        (∀ v, x.formed = some v → v = w → v ≠ 0 → (t.opt.port p).peerv = v ∧ (t.opt.port p).meas = some ⟨64, [(0, s.time.track)], []⟩ ∧
          sends t (probe 0)) ∧
        (∀ v, x.formed = some v → v ≠ w ∨ v = 0 → down t 3))) ∧
    (∀ k : OptPkt, quiet → x.rx = [k] →
      (h k % 256 = 0x40 → k.cls = .control → ∃ t, exec (.probe p) s = .next t ∧ (t.opt.port p).rx = [] ∧
        sends t (s.peerHeader p 0x41 (h k / 2 ^ 128 % 2 ^ 64 * 2 ^ 128 + k.at'.toNat * 2 ^ 192 + s.time.track.toNat * 2 ^ 256 +
          h k / 2 ^ 320 % 2 ^ 16 * 2 ^ 320))) ∧
      (∀ (m : Meas) (set : Bool), h k % 256 = 0x41 → k.cls = .control → x.meas = some m →
        let n := h k / 2 ^ 320 % 2 ^ 16
        let w (i : Nat) : Word64 := BitVec.ofNat 64 (h k / 2 ^ i)
        let off : Int := ((w 192 - w 128).toInt - (k.at' - w 256).toInt) / 2
        let rtt : Nat := ((k.at' - w 128).toInt - (w 256 - w 192).toInt).toNat
        (n, w 128) ∈ m.sent → (∀ e ∈ m.got, e.1 ≠ n) → ∃ t, exec (.probeReply p set) s = .next t ∧
          (m.got.length + 1 < m.total → (t.opt.port p).up = x.up ∧
            (∃ m', (t.opt.port p).meas = some m' ∧ m'.total = m.total ∧ m'.got = m.got ++ [(n, off, rtt)]) ∧ sends t (probe (m.got.length + 1))) ∧
          (m.total ≤ m.got.length + 1 → (t.opt.port p).up = true ∧ (t.opt.port p).meas = none ∧
            let e := t.opt.eph.get .reset p.toNat
            e.peer = x.peermod ∧ e.peerset = set ∧ e.samples = BitVec.ofNat 8 m.total ∧ e.at' = s.clk.hc ∧
              e.valid = (!x.up || (s.opt.eph.get .reset p.toNat).valid) ∧
              let all := m.got ++ [(n, off, rtt)]
              (m.total = 64 ∨ m.total = 8 → all.length = m.total →
                (∃ a ∈ all, e.offset = BitVec.ofInt 64 a.2.1 ∧ (all.filter fun y => y.2.1 < a.2.1).length < m.total / 2 ∧
                  m.total / 2 ≤ (all.filter fun y => y.2.1 ≤ a.2.1).length) ∧
                (∃ a ∈ all, e.rtt = BitVec.ofNat 32 a.2.2 ∧ ∀ y ∈ all, a.2.2 ≤ y.2.2) ∧
                ∃ a ∈ all, ∃ b ∈ all, (∀ y ∈ all, a.2.1 ≤ y.2.1 ∧ y.2.1 ≤ b.2.1) ∧
                  e.bound = BitVec.ofNat 32 ((if x.cfg.asym = 0 then 8 else x.cfg.asym) + 2 + ((b.2.1 - a.2.1 + 1) / 2).toNat)))) ∧
      ((h k % 256 = 1 ∨ h k % 256 = 2) → ∃ t, exec (.opticalOrbitPacket p) s = .next t ∧ (t.opt.port p).rx = [] ∧ t.cells = s.cells ∧
        (s.orbitOk p k.orbit = true → t.orbit = s.orbit ++ [k.orbit]) ∧
        (s.orbitOk p k.orbit = false → t.orbit = s.orbit ∧ (t.opt.port p).badpkt.toNat = min 0xFF (x.badpkt.toNat + 1)))) ∧
    (∀ fr : Frame, quiet → ∃ t o, exec (.frame p fr) s = .next t ∧
      (t.opt.port p).csym.toNat = min 0xFFFF (x.csym.toNat + (fr.wrong.filter fun n => n ≤ 15).sum) ∧
      (t.opt.port p).ucw.toNat = min 0xFFFF (x.ucw.toNat + (fr.wrong.filter fun n => 15 < n).length) ∧
      ((∃ n ∈ fr.wrong, 15 < n) ∨ fseq fr.ctl ≠ x.expect → t.opt.sent = s.opt.sent ++ [(p.toNat, o)] ∧ o.ctl.getLsbD 24 = true ∧ o.slots = [] ∧
        (t.opt.port p).expect = x.expect ∧ (t.opt.port p).rx = x.rx) ∧
      (∀ (k : FlitBits) (c : Sys2Proof.Class), (∀ n ∈ fr.wrong, n ≤ 15) → fseq fr.ctl = x.expect → fr.ctl.getLsbD 24 = false → fr.flits = [(c, k)] →
        dataFlits k.toNat = some 0 → t.opt.sent = s.opt.sent ++ [(p.toNat, o)] ∧ o.ctl.getLsbD 24 = false ∧ fack o.ctl = fseq fr.ctl ∧
          (t.opt.port p).expect = x.expect + 1 ∧ (t.opt.port p).rx = x.rx ++ [⟨k, [], c, s.time.track⟩] ∧
          ∀ i, ((t.opt.port p).klass i).part = [])) ∧
    (∀ why : RetrainWhy, x.up = true → x.retrain = none → (why = .codewords → 16 ≤ x.ucwRun) →
      (why = .fackTimeout → x.replay ≠ [] ∧ x.fackAt + 36000 ≤ s.clk.hc) → exec (.retrain p why) s = .next (s.updPort p fun x =>
        { x with retrain := some s.clk.hc, retrains := BitVec.ofNat 8 (min 0xFF (x.retrains.toNat + 1)), ucwRun := 0 })) ∧
    (∀ r : LaneResult, x.retrain ≠ none → ∃ t, exec (.retrainComplete p r) s = .next t ∧
      let good := laneCount r.working
      let spare := min (16 - good) (s.opt.spares.get 4 (p.toNat / 2) - (s.opt.port (mateLink p)).spares.toNat)
      let w := if 16 ≤ good + spare then 2 else if 8 ≤ good + spare then 1 else 0
      (w = 0 → down t 2) ∧ (w ≠ 0 → (r.otherFailure = true ∨ r.light = false) → down t 5) ∧
      (w ≠ 0 → r.otherFailure = false → r.light = true → (t.opt.port p).retrain = none ∧ (t.opt.port p).lanes = r.working ∧
        (t.opt.port p).spares = BitVec.ofNat 3 spare ∧ (t.opt.port p).width.toNat = min w x.width.toNat ∧
        (∃ m, (t.opt.port p).meas = some m ∧ (x.meas = none → m.total = 8 ∧ m.got = []) ∧
          ∀ m', x.meas = some m' → m.total = m'.total ∧ m.got = m'.got) ∧
        (x.linked = true → x.cls = [] → x.replay = [] →
          sends t (probe (match x.meas with | some m => m.got.length | none => 0))))) ∧
    (∀ (temps : List Int) (mv : Nat), s.gov.optAt + 1800000 ≤ s.clk.hc → ∃ t, exec (.opticalLoadCurve temps mv) s = .next t ∧
      t.gov = { s.gov with optAt := s.clk.hc } ∧ t.cells = s.cells ∧
      let b := s.gov.optCurves.get [] (p.toNat / 2)
      let i := 2 * (41 * tempStep (temps.getD (p.toNat / 2) 0) + supplyBand mv)
      (t.opt.port p).bias = (if b = [] then x.bias else curveByte b i) ∧ (t.opt.port p).eq = (if b = [] then x.eq else curveByte b (i + 1))) ∧
    ∀ f0 f1 n : Nat, let y := spareSplit f0 f1 n
      y.1 + y.2 = min n (f0 + f1) ∧ y.1 ≤ f0 ∧ y.2 ≤ f1 ∧ (f0 ≤ f1 → y.1 = min f0 n) ∧ (f1 < f0 → y.2 = min f1 n)

/-- R391 to R403: the page service, while the traffic of the port toward the other module is held so that packets wait in order: a post starts a GET
or a PUT, or ends at once with its result; a target serves a GET with 16 parts, once no earlier PUT of its page waits for parts, or answers BUSY
with 64 operations in its queue, and performs a PUT when its last part has come; a part of a GET is written to LOCAL, and the last one, a PG_ACK or
1 ms without an answer writes STATUS and ends the operation. -/
def Obligations.PageResults : Prop :=
  ∀ (p q : LinkId) (s : State), s.dispOn = true → (s.opt.port q).up = true → (s.opt.port q).retrain ≠ none →
    (∀ a, s.hbm.fencedAt a = false) → s.hbm.mem.bad = [] → s.hbm.mem.soft = [] → s.hbm.onDie = [] → (∀ g, (s.cell g).slice.soft = []) →
    let o := s.opt
    let mod := o.modnum.toNat
    let queued (t : State) (c : Nat) (l : List OptPkt) : Prop :=
      ((t.opt.port q).klass c).tx = ((o.port q).klass c).tx ++ l.flatMap OptPkt.flits
    let status (t : State) (x : PageOp) (r : Nat) : Prop :=
      t.opt.ops = [] ∧ (t.cell x.cell).slice.read (x.desc + 32) = 1 ∧ (t.cell x.cell).slice.read (x.desc + 33) = BitVec.ofNat 8 r ∧
        ∀ i < 4, (t.cell x.cell).slice.read (x.desc + 36 + i) = BitVec.ofNat 8 (s.time.track.toNat / 256 ^ i)
    (∀ (x : PgPost) (off : Nat) (w : List Nat), o.posts = [x] → s.postDesc x = some (off, w) →
      let dst := w.getD 0 0 / 2 ^ 16 % 2 ^ 16
      let page := w.getD 0 0 / 2 ^ 32 % 2 ^ 32
      let cls := w.getD 0 0 / 2 ^ 4 % 4
      let new : PageOp :=
        ⟨o.nextReq, x.cell, off, decide (w.getD 0 0 % 16 = 2), BitVec.ofNat 2 cls, BitVec.ofNat 16 dst, BitVec.ofNat 32 page,
          w.getD 1 0 % 2 ^ 52, x.at'⟩
      (w.getD 0 0 % 16 = 1 → o.ops = [] → s.postResult x w off = 0 → s.route dst = some q → ∃ t, exec .get s = .next t ∧ t.cells = s.cells ∧
        t.opt.posts = [] ∧ t.opt.ops = [new] ∧ t.opt.nextReq = o.nextReq + 1 ∧
        queued t cls [{ head := optHeader 0x20 mod dst cls 0 (o.nextReq.toNat * 2 ^ 64 + page * 2 ^ 96), data := [] }]) ∧
      (∀ bs, w.getD 0 0 % 16 = 2 → o.ops = [] → s.postResult x w off = 0 → s.route dst = some q →
        (s.bufferPlace x.cell (w.getD 1 0 % 2 ^ 52)).bind (fun pl => s.pageRead pl 0x10000) = some bs → ∃ t, exec .put s = .next t ∧
          t.cells = s.cells ∧ t.opt.posts = [] ∧ t.opt.ops = [new] ∧ queued t cls (s.putParts o.nextReq.toNat w bs)) ∧
      (∀ r, w.getD 0 0 % 16 ≠ 2 → s.postResult x w off = r → r ≠ 0 → r < 256 → ∃ t, exec .get s = .next t ∧ t.opt.posts = [] ∧ t.opt.ops = o.ops ∧
        (t.cell x.cell).slice.read (off + 32) = 1 ∧ (t.cell x.cell).slice.read (off + 33) = BitVec.ofNat 8 r)) ∧
    (∀ k : OptPkt, (o.port p).rx = [k] → k.head.toNat / 2 ^ 32 % 2 ^ 16 = mod →
      let h := k.head.toNat
      let src := h / 2 ^ 16 % 2 ^ 16
      let req := h / 2 ^ 64 % 2 ^ 16
      let cls := h / 2 ^ 48 % 4
      let part := h / 2 ^ 80 % 16
      let page := h / 2 ^ 96 % 2 ^ 32
      let ack (r : Nat) : List OptPkt := [{ head := optHeader 0x23 mod src 0 0 (req * 2 ^ 64 + r * 2 ^ 88 + page * 2 ^ 96), data := [] }]
      (h % 256 = 0x20 → o.role = 3 → page < o.count.toNat → s.route src = some q → (∀ b ∈ o.admitted, b.whole = false) →
        ∃ t, exec (.pgGet p) s = .next t ∧ t.cells = s.cells ∧ t.hbm = s.hbm ∧ (t.opt.port p).rx = [] ∧
        (64 ≤ o.admitted.length → t.opt.admitted = o.admitted ∧ queued t 0 (ack 1)) ∧
        (o.admitted.length < 64 → (∃ b ∈ o.admitted, b.page.toNat = page) → (∃ b, t.opt.admitted = o.admitted ++ [b] ∧ b.put = false ∧
          b.page.toNat = page) ∧ ∀ c, queued t c []) ∧
        (o.admitted.length < 64 → (∀ b ∈ o.admitted, b.page.toNat ≠ page) → t.opt.admitted = o.admitted ∧
          queued t cls ((List.range 16).map fun i =>
            { head := optHeader 0x21 mod src cls 0 (req * 2 ^ 64 + i * 2 ^ 80 + page * 2 ^ 96),
              data := flitsOf (s.hbm.mem.readBytes (s.poolOff page + 0x1000 * i) 0x1000) 64 }))) ∧
      (∀ (x : PageOp) (g : CellId) (a : Nat), h % 256 = 0x21 → o.ops = [x] → x.reqid.toNat = req → x.put = false → k.data.length = 64 →
        s.bufferPlace x.cell x.local' = some (.slice g a) → s.cellDown g = false → s.cellDown x.cell = false →
        ∃ t, exec (.pgData p) s = .next t ∧ (t.opt.port p).rx = [] ∧ (part ≠ 15 → t.opt.ops = [x]) ∧ (part = 15 → status t x 0) ∧
          ∀ i < 4096, (part = 15 → g = x.cell → a + 0x1000 * part + i < x.desc + 32 ∨ x.desc + 40 ≤ a + 0x1000 * part + i) →
            (t.cell g).slice.read (a + 0x1000 * part + i) = (bytesOf k.data).getD i 0) ∧
      (h % 256 = 0x22 → o.role = 3 → page < o.count.toNat → o.dropped = [] → h / 2 ^ 84 % 2 = 0 → s.route src = some q →
        (part = 0 → o.admitted = [] → ∃ t, exec (.pgPut p) s = .next t ∧ t.hbm = s.hbm ∧ t.cells = s.cells ∧ t.opt.admitted =
          [⟨true, p, BitVec.ofNat 16 src, BitVec.ofNat 16 req, BitVec.ofNat 32 page, k.head, [(0, k.data)]⟩]) ∧
        (∀ b : PageServe, part ≠ 0 → o.admitted = [b] → b.put = true → b.srcmod.toNat = src → b.reqid.toNat = req →
          (b.parts.set part k.data).length = 16 → ∃ t, exec (.pgPut p) s = .next t ∧ t.opt.admitted = [] ∧ t.cells = s.cells ∧
            t.hbm.mem = s.hbm.mem.store hbmUnit (s.poolOff b.page.toNat)
              ((List.range 16).flatMap fun i => bytesOf ((b.parts.set part k.data).get [] i)) ∧ queued t 0 (ack 0))) ∧
      (∀ x : PageOp, h % 256 = 0x23 → o.ops = [x] → x.reqid.toNat = req → s.cellDown x.cell = false → ∃ t, exec (.pgAck p) s = .next t ∧
        (t.opt.port p).rx = [] ∧ status t x (h / 2 ^ 88 % 256) ∧ t.hbm = s.hbm)) ∧
    (∀ x : PageOp, o.ops = [x] → s.cellDown x.cell = false → x.posted + 1800000 ≤ s.clk.hc →
      ∃ t, exec (.pageTimeout x.reqid) s = .next t ∧ status t x 9 ∧ t.hbm = s.hbm)

/-- R253, R258, R259, R263, R264, R270, R271, R309, R410, R418, R440, R441: a fill that is still live is installed; a line that holds an
uncorrectable error is dropped by the access that meets it; a re-centring window applies the correction that waits and ends the error interval, and
every 1 ms the curves give the next; a scrub corrects what the code can, which counts, and keeps what it cannot, with a record; the count that
reaches CETH or UETH fences the pseudo-channel at once, with a FENCE record; pseudo-channels that are fenced go into the health list. -/
def Obligations.HbmResults : Prop :=
  ∀ s : State, s.dispOn = true →
    let begun (c : ChanId) : Nat :=
      if s.clk.hc < c.toNat * 225000 then 0 else (s.clk.hc - c.toNat * 225000) / 57600000 + 1
    (∀ (t' : BitVec 2) (f : Fill) (rest : List Fill), (∀ e ∈ s.cells, e.2.pil.acqr = none) → (s.hbm.cache t'.toNat).fills = f :: rest →
      ∃ t, exec (.cacheFill t') s = .next t ∧ t.hbm.mem = s.hbm.mem ∧ (t.hbm.cache t'.toNat).fills = rest ∧
      (f.live = false → (t.hbm.cache t'.toNat).lines = (s.hbm.cache t'.toNat).lines) ∧
      (f.live = true → (∃ l ∈ (t.hbm.cache t'.toNat).lines, l.num = f.num ∧ l.data = f.data ∧ l.wrong = []) ∨
        ∀ l ∈ (s.hbm.cache t'.toNat).lines, l.num % 131072 = f.num % 131072 → l.keep = true ∨ l.num = f.num)) ∧
    (∀ (g : CellId) (engine : Byte) (a n u w : Nat) (l : Line), (s.hbm.cache (g.toNat / 64)).lines = [l] → l.num = a / 256 → l.wrong = [(u, w)] →
      u / 8 = a % 256 / 64 → 0 < n → a % 64 + n ≤ 64 → ∃ x, (s.cacheCheck g engine a n).hbm.cache (g.toNat / 64) = x ∧
        (1 < w → x.lines = [] ∧ x.ue = (s.hbm.cache (g.toNat / 64)).ue + 1 ∧ ∃ e, ((s.cacheCheck g engine a n).cell g).out =
          (s.cell g).out ++ [.record e] ∧ e.mech = 0x03 ∧ e.action = 0x00) ∧
        (w ≤ 1 → x.lines = [{ l with wrong := [] }] ∧ x.ce = (s.hbm.cache (g.toNat / 64)).ce + 1 ∧
          ((s.cacheCheck g engine a n).cell g).out = (s.cell g).out)) ∧
    (∀ c : ChanId, (s.hbm.chan c).trained = true → c.toNat * 225000 + (s.hbm.chan c).windows * 57600000 ≤ s.clk.hc →
      let y := (s.hbm.chan c).roll (begun c)
      ∃ t, exec (.recentre c) s = .next t ∧ t.hbm.mem = s.hbm.mem ∧ t.cells = s.cells ∧ (∀ d, d ≠ c → t.hbm.chan d = s.hbm.chan d) ∧
        t.hbm.chan c = if y.fenced = true ∧ y.fenceHc = c.toNat * 225000 + y.windows * 57600000 then { y with windows := y.windows + 1 }
          else { y with windows := y.windows + 1, corr := y.corrNext.getD y.corr, corrNext := none }) ∧
    (∀ (x : Chan) (k : Nat), (x.interval = k → x.roll k = x) ∧ (x.interval ≠ k → x.roll k =
      { x with ce := if x.interval + 1 = k then BitVec.ofNat 16 (min 0xFFFF x.run) else 0, run := 0, interval := k })) ∧
    (∀ (temps : List Int) (mv : Nat), s.gov.hbmAt + 1800000 ≤ s.clk.hc → ∃ t, exec (.hbmLoadCurve temps mv) s = .next t ∧
      t.gov = { s.gov with hbmAt := s.clk.hc } ∧ t.hbm.mem = s.hbm.mem ∧ (∀ k < 8, t.hbm.hot.getLsbD k = decide (85 < temps.getD k 0)) ∧
      ∀ c : ChanId,
        let y := s.hbm.chan c
        let b := s.gov.hbmCurves.get [] (c.toNat / 32)
        t.hbm.chan c = if b ≠ [] ∧ y.trained = true then
          { y with corr := y.corrNext.getD y.corr,
                   corrNext := some (curveByte b (41 * tempStep (temps.getD (c.toNat / 32) 0) + supplyBand mv)) } else y) ∧
    (∀ (n w : Nat) (c : ChanId) (r : Nat), s.hbm.mem.soft = [] → s.hbm.mem.bad = [] → s.hbm.onDie = [] →
      s.hbm.chanOf (n * 64) = some (c, r) → 0 < w →
      let y := s.hbm.chan c
      let z := y.roll (begun c)
      ∃ t, exec (.scrub (.hbm n) [.store (.hbm n) w]) s = .next t ∧
        (w ≤ 3 → z.run + 1 < s.hbm.ceth.toNat → t.hbm.mem = s.hbm.mem ∧ t.hubRecs = s.hubRecs ∧
          t.hbm.chan c = { z with run := z.run + 1, cetot := BitVec.ofNat 16 (min 0xFFFF (z.cetot.toNat + 1)) }) ∧
        (y.fenced = false →
          let fenced (cls : Byte) (rest : List ErrRec) : Prop := (t.hbm.chan c).fenced = true ∧ (t.hbm.chan c).fenceHc = s.clk.hc ∧
            t.hbm.healthWait = s.hbm.healthWait ++ [c] ∧ t.hbm.fencedAt (n * 64) = true ∧ ∃ e, t.hubRecs = s.hubRecs ++ e :: rest ∧
              e.mech = 0x04 ∧ e.action = 0x05 ∧ e.cls = cls ∧ e.unit.toNat = c.toNat
          (w ≤ 3 → s.hbm.ceth.toNat ≤ z.run + 1 → fenced 0 []) ∧
          (3 < w → s.hbm.ueth.toNat ≤ min 0xFF (y.ue.toNat + 1) → ∃ e, fenced 1 [e] ∧ e.mech = 0x04 ∧ e.action = 0x00)) ∧
        (3 < w → y.ue.toNat + 1 < s.hbm.ueth.toNat → t.hbm.mem.bad = [n] ∧ t.hbm.chan c = { y with ue := BitVec.ofNat 8 (y.ue.toNat + 1) } ∧
          ∃ e, t.hubRecs = s.hubRecs ++ [e] ∧ e.mech = 0x04 ∧ e.action = 0x00)) ∧
    (∀ (g : CellId) (n k w : Nat), let c := s.cell g
      c.ls.soft = [] → c.ls.bad = [] → 0 < w → k / 8 = n → ∃ t, exec (.scrub (.localStore g n) [.store (.localStore g k) w]) s = .next t ∧ s.sameBut t g ∧
        (w = 1 → t.cell g = { c with ls := { c.ls with ce := c.ls.ce + 1 } }) ∧
        (1 < w → (t.cell g).ls = { c.ls with bad := [k] } ∧ ∃ e, (t.cell g).out = c.out ++ [.record e] ∧ e.mech = 0x03 ∧ e.action = 0x00)) ∧
    (∀ c : ChanId, s.hbm.healthWait = [c] → s.boot.ready = true → s.boot.busy = none → exec .healthListWrite s = .next
      { s with flash := s.flash.healthWrite (s.flash.healthRead.set c.toNat (if (s.hbm.chan c).fenceWhy = 1 then 2 else 1)),
               hbm := { s.hbm with healthWait := [] } })

/-! Failures, start, service, observation. -/

/-- R37, R248, R436, R446, R448, R451 to R456: an error record is numbered, kept and told, marks its command, and a repeated one is merged; the
watchdog resets its cell; a reset empties the cell, takes its group down, and ends with the cell reloaded and its firmware started, or with the
group unformed; a self-test runs and ends; a safe stop stops everything. -/
def Obligations.FailureResults : Prop :=
  ∀ (g : CellId) (s : State), s.dispOn = true →
    let c := s.cell g
    let kept (t : State) (r : ErrRec) : Prop :=
      let w := t.safe.log.get [] (s.safe.next.toNat % 256)
      t.safe.next = s.safe.next + 1 ∧ t.safe.notice = true ∧ t.disp.arbSeq = s.disp.arbSeq + 1 ∧
        w.getD 0 0 = BitVec.ofNat 64 (s.safe.next.toNat + r.mech.toNat * 2 ^ 32 + r.action.toNat * 2 ^ 40 + r.cls.toNat * 2 ^ 48) ∧
        w.getD 1 0 = s.arbStamp s.clk.hc ∧ (w.getD 3 0).toNat = r.addr.toNat % 2 ^ 52 ∧ (w.getD 5 0).toNat = s.disp.arbSeq.toNat
    let marked (t : State) (r : ErrRec) : Prop :=
      ∀ x : Cmd, r.action = 0x01 → s.disp.cmds = [x] → r.cmd = some x.id → x.over = false → x.touched = none →
        ∃ y, t.disp.cmds = [y] ∧ y.id = x.id ∧ y.touched = some s.safe.next ∧
          ∀ m ∈ x.members, (∀ e ∈ x.ended, e.1 ≠ m) → (m, x.id) ∈ t.disp.ends
    (∀ (r : ErrRec), r.action ≠ 0x00 →
      (∀ rest, c.out = .record r :: rest → ∃ t, exec (.errorRecord (.cell g)) s = .next t ∧ (t.cell g).out = rest ∧ kept t r ∧ marked t r) ∧
      (∀ rest, s.hubRecs = r :: rest → ∃ t, exec (.errorRecord .hub) s = .next t ∧ t.hubRecs = rest ∧ t.cells = s.cells ∧ kept t r ∧ marked t r)) ∧
    (∀ (r : ErrRec) (rest : List CellMsg) (i : Nat) (w : List Word64), c.out = .record r :: rest → r.action = 0x00 → s.safe.log = [(i, w)] →
      r.repeats w = true → s.clk.hc ≤ s.safe.logHc.get 0 i + 1800000 → 2 < w.length → ∃ t, exec (.errorRecord (.cell g)) s = .next t ∧
        (t.cell g).out = rest ∧ t.safe.next = s.safe.next ∧ t.disp.arbSeq = s.disp.arbSeq + 1 ∧
        (hdrDw (t.safe.log.get [] i) 2) / 2 ^ 32 = min 0xFFFFFFFF (hdrDw w 2 / 2 ^ 32 + 1)) ∧
    (c.id.inReset = none → s.dogBites g = true → ∃ t, exec (.watchdog g) s = .next t ∧ (t.cell g).id.inReset = some 2 ∧
      (t.cell g).pil.mode = .idle ∧ (t.cell g).arr.passes = [] ∧ (t.safe.fired.get 0 (g.toNat / 64)).getLsbD (g.toNat % 64) = true ∧ ∀ h, h ≠ g → t.cell h = s.cell h) ∧
    (∀ why : ResetWhy, (c.id.inReset = some (ResetWhy.code why) ∧ c.id.admitted = false) ∨ (why = .lockstep ∧ c.id.inReset = none ∧ c.id.admitted = false) →
      s.disp.cmds = [] → (why ∈ [.triple, .lockstep, .ecc] → c.out = []) → ∃ t, exec (.cellReset g why) s = .next t ∧ t.safe.next = s.safe.next + 1 ∧ t.disp.arbSeq = s.disp.arbSeq + 1 ∧
        (t.cell g).id.inReset = some (ResetWhy.code why) ∧ (t.cell g).id.admitted = true ∧ (t.cell g).id.present = false ∧ (t.cell g).pil.mode =
          (if c.id.inReset = none then .idle else c.pil.mode) ∧ (t.cell g).rings = [] ∧ (t.cell g).mbox.words = [] ∧
        (t.cell g).arr.inbox = [] ∧ (t.cell g).vec.inbox = [] ∧ (∀ r ∈ (t.cell g).pil.remotes, r.performed = false ∧ r.lost = false) ∧
        (∀ h, h ≠ g → t.cell h = s.cell h) ∧ (c.id.group ≠ 0x7F → (t.group c.id.group.toNat).down = true) ∧ ∀ e ∈ t.disp.flying, e.cell ≠ g) ∧
    (∀ why : ResetWhy, why ∈ [.triple, .ecc] → c.id.inReset = some (ResetWhy.code why) → c.out ≠ [] → exec (.cellReset g why) s = .next s) ∧
    (∀ code, c.id.inReset = some code → c.id.admitted = true → c.id.dead = false → s.disp.cmds = [] →
      (∃ t, exec (.cellResetDone g false) s = .next t ∧ (t.cell g).id.dead = true ∧ (t.cell g).id.inReset = some code ∧
        (c.id.group ≠ 0x7F → (t.group c.id.group.toNat).formed = false ∧ (t.group c.id.group.toNat).down = false)) ∧
      (s.flash.streamFail s.boot.slot (s.imagesFor g) = none → ∃ t, exec (.cellResetDone g true) s = .next t ∧
        (t.cell g).id.inReset = none ∧ (t.cell g).id.present = true ∧ (t.cell g).id.group = c.id.group ∧ (t.cell g).pil.mode = .firmware ∧
        (t.cell g).pil.pc = 0x100040 ∧ (t.cell g).arr.orbit = c.arr.orbit ∧ (t.cell g).exc = .reset ∧ (t.cell g).vec = .reset ∧
        (s.imagesFor g = [] → (t.cell g).ls = .empty ∧ (t.cell g).slice = .empty) ∧ ∀ h, h ≠ g → t.cell h = s.cell h)) ∧
    (s.testable g = true → exec (.selftest g) s = .next (s.updCell g fun c => { c with id := { c.id with selfTest := some s.clk.hc } })) ∧
    (∀ t0, c.id.selfTest = some t0 → t0 + 216000 ≤ s.clk.hc →
      (exec (.selftestDone g true) s = .next (s.updCell g fun c => { c with id := { c.id with selfTest := none, lastTest := s.clk.hc } })) ∧
      (c.id.inReset = none → ∃ t, exec (.selftestDone g false) s = .next t ∧ (t.cell g).id.inReset = some 5 ∧ (t.cell g).id.selfTest = none ∧
        s.sameBut t g)) ∧
    (∀ memory : Bool, ∃ t, exec (.safeStop memory) s = .next t ∧ t.clk.stopped = true ∧ t.safe.safestop = true ∧ t.safe.next = s.safe.next + 1 ∧
      (∀ h, (t.cell h).id.inReset.isSome = true ∧ ((s.cell h).id.inReset = none → (t.cell h).pil.mode = .idle)) ∧
      (∀ p, (t.pport p).up = false) ∧ (∀ p, (t.opt.port p).up = false ∧ (t.opt.port p).linked = false) ∧ t.hbm = s.hbm)

/-- R254, R407 to R433, R489 to R491, R494: power comes and goes; each phase of the start passes when its checks pass, and the first that fails
begins the start again with the other slot; the flash operations act on the standby slot, the health list and the fuse, and end. -/
def Obligations.StartResults : Prop :=
  ∀ s : State,
    let b := s.boot
    let fl := s.flash
    let off (t : State) (on : Bool) : Prop :=
      t.clk.powered = on ∧ t.clk.cc = 0 ∧ t.clk.hc = 0 ∧ t.cells = [] ∧ t.hbm = .reset ∧ t.flash = fl ∧ t.fuses = s.fuses ∧ t.queues = [] ∧
        t.groups = [] ∧ t.disp.cmds = [] ∧ t.time = .reset ∧ t.pending = s.pending
    let failed (t : State) (f : Nat × Nat) (slot : Bool) : Prop :=
      (b.fallback = true → t.boot.phase = 15) ∧
        (b.fallback = false → t.boot.phase = 0 ∧ t.boot.fallback = true ∧ t.boot.reason = BitVec.ofNat 8 f.1 ∧ t.boot.useSlot = some !slot ∧
          off t true)
    (s.clk.powered = false → ∀ mv, 38000 < mv → ∃ t, exec (.powerOn mv) s = .next t ∧ off t true ∧ t.boot = .reset) ∧
    (s.clk.powered = true → (∃ t, exec .powerOff s = .next t ∧ off t false) ∧
      ∀ (tj : Int) (us : Nat), 224 ≤ tj → 1000 ≤ us → ∃ t, exec (.thermalShutdown tj us) s = .next t ∧ off t false) ∧
    (s.hubOn = true → s.hbm.healthWait = [] →
      (b.phase = 0 → s.pins.scanen = false → ∃ t, exec (.rom false) s = .next t ∧ t.boot.phase = 1 ∧ t.boot.fusedSvn = BitVec.ofNat 6 s.fuses.svn ∧
        t.boot.custblank = (s.fuses.custKey == 0) ∧ t.cells = s.cells) ∧
      (b.phase = 1 → let slot := b.useSlot.getD fl.bootRead.1
        ∃ t, exec .verify s = .next t ∧
          match orFail ((fl.atlasFail slot s.fuses).map fun x => (x, 0)) (fl.dirFail slot) with
          | none => t.boot.phase = 2 ∧ t.boot.slot = slot ∧ t.boot.boots = BitVec.ofNat 32 fl.bootRead.2
          | some f => failed t f slot) ∧
      (b.phase = 2 → let l := (fl.sects b.slot).filter fun x => x.type == 1
        ∃ t, exec .hubfw s = .next t ∧ match fl.streamFail b.slot l with
          | none => t.boot.phase = 3 ∧ t.boot.fwUp = true ∧ t.boot.prog = b.prog + BitVec.ofNat 64 (sectBytes l) ∧ t.cells = s.cells
          | some f => failed t f b.slot) ∧
      (b.phase = 3 → ∃ t, exec .config s = .next t ∧ match fl.configFail b.slot with
          | none => t.boot.phase = 4 ∧ t.hbm.ilv = fl.section' b.slot 7 ∧ t.disp.len = (fl.section' b.slot 5).length / 32 ∧
              t.opt.modnum = BitVec.ofNat 16 (dwAt (fl.section' b.slot 3) 0 / 2 ^ 16)
          | some f => failed t f b.slot) ∧
      (b.phase = 4 → s.opt.ops = [] → s.opt.admitted = [] → ∀ res : TrainResult, ∃ t, exec (.train res) s = .next t ∧ t.boot.phase = 5 ∧
        t.boot.idpk = BitVec.ofNat 256 (leNat (identityPublic s.fuses.secret)) ∧ t.hbm.live.toNat + t.hbm.mapout.toNat = 256 ∧
        (∀ p : ChanId, (t.hbm.chan p).trained = true ↔ byteAt fl.healthRead p.toNat = 0 ∧ p ∉ res.badCentring ∧
          (∀ k ∈ res.badStacks, k.toNat ≠ p.toNat / 32) ∧ (∀ x ∈ res.dataLanes, x.chan = p → x.failed ≤ x.spares) ∧
          ∀ x ∈ res.caLanes, x.chan.toNat / 2 = p.toNat / 2 → x.failed ≤ x.spares) ∧
        (∀ e < 4, let n := (res.spares.getD e 4).toNat
          let y := spareSplit (s.failedLanes res (2 * e)) (s.failedLanes res (2 * e + 1)) n
          t.opt.spares.get 4 e = n ∧ ∀ k < 2, let p : LinkId := BitVec.ofNat 3 (2 * e + k)
            let r := lanesOf res (2 * e + k)
            let m := if k = 0 then y.1 else y.2
            (s.opt.port p).used = true → r.light = true → r.otherFailure = false → 8 ≤ laneCount r.working + m →
              (t.opt.port p).linked = true ∧ (t.opt.port p).spares = BitVec.ofNat 3 m ∧
                (t.opt.port p).width = (if 16 ≤ laneCount r.working + m then 2 else 1) ∧ (t.opt.port p).lanes = r.working) ∧
        ∀ g : CellId, (∀ h ∈ res.badCells, h ≠ g) → (t.cell g).id.present = true ∧ (t.cell g).ls = .empty ∧ (t.cell g).slice = .empty) ∧
      (b.phase = 5 → s.optTraining = true → exec .hbmzero s = .next s ∧ s.bootNow.phase = 4) ∧
      (b.phase = 5 → s.optTraining = false → ∃ t, exec .hbmzero s = .next t ∧
        (s.hbm.live.toNat < dwAt (fl.section' b.slot 3) 3 / 2 ^ 32 % 2 ^ 9 → failed t (0x0F, 0) b.slot) ∧
        (dwAt (fl.section' b.slot 3) 3 / 2 ^ 32 % 2 ^ 9 ≤ s.hbm.live.toNat → s.hbmDestFail = none →
          t.boot.phase = 6 ∧ t.hbm.mem = .empty ∧ t.hbm.caches = [] ∧ t.cells = s.cells)) ∧
      (b.phase = 6 → ∃ t, exec .load s = .next t ∧ match fl.streamFail b.slot (fl.images b.slot) with
          | none => t.boot.phase = 7 ∧ t.boot.prog = b.prog + BitVec.ofNat 64 (sectBytes (fl.images b.slot)) ∧
              ∀ x g, fl.images b.slot = [x] → x.type = 0x11 → x.dkind = 1 → x.dsel = g.toNat → (s.cell g).id.present = true →
                (t.cell g).ls = (s.cell g).ls.store sramUnit x.dest (fl.content b.slot x) ∧ ∀ h, h ≠ g → t.cell h = s.cell h
          | some f => failed t f b.slot) ∧
      (b.phase = 7 → ∃ t, exec .cellinit s = .next t ∧ t.boot.phase = 8 ∧ ∀ g : CellId,
        (t.cell g).pil.mode = (if (s.cell g).id.present then .firmware else (s.cell g).pil.mode) ∧
          ((s.cell g).id.present = true → (t.cell g).pil.pc = 0x100040)) ∧
      (b.phase = 8 → b.ready = false → s.bootNow.phase = 7 ∧ (s.flashBusy = true → exec .ready s = .next s)) ∧
      (b.phase = 8 → b.ready = false → s.flashBusy = false → ∃ t, exec .ready s = .next t ∧ t.boot.ready = true ∧
        t.boot.boots = BitVec.ofNat 32 (fl.bootRead.2 + 1) ∧ t.cells = s.cells ∧ ∀ p, (s.pport p).up = true → (t.pport p).st = 1)) ∧
    (∀ x : FlashOp, s.hubOn = true → b.busy = some x → b.doneFlash = false →
      let ended (t : State) (r : Nat) : Prop := t.boot = { b with result := BitVec.ofNat 4 r, doneFlash := true } ∧ t.cells = s.cells
      (x.op = 1 → ∃ t, exec .program s = .next t ∧
        (s.flashSrc x.src = none → ended t 1 ∧ t.flash = fl) ∧
        (∀ g o, s.flashSrc x.src = some (.slice g o) → x.block ≤ 0xFFFEFF → s.cellDown g = false → (s.cell g).slice.bad = [] → (s.cell g).slice.soft = [] →
          ended t 0 ∧ t.flash = fl.store flashUnit (slotBase (!b.slot) + x.block * 0x10000) ((s.cell g).slice.readBytes o 0x10000))) ∧
      (x.op = 2 → ∃ t, exec .activate s = .next t ∧
        (∀ r, fl.atlasFail (!b.slot) s.fuses = some r → ended t (if r = 1 then 2 else 3) ∧ t.flash = fl) ∧
        (fl.atlasFail (!b.slot) s.fuses = none → ended t 0 ∧ t.flash = fl.bootWrite (!b.slot) fl.bootRead.2)) ∧
      (x.op = 3 → ∃ t, exec .clearhealth s = .next t ∧ (256 < x.pc → ended t 1 ∧ t.flash = fl) ∧
        (x.pc ≤ 256 → ended t 0 ∧
          t.flash = fl.healthWrite (if x.pc = 256 then List.replicate 256 0 else fl.healthRead.set x.pc 0))) ∧
      (x.op = 4 → ∃ t, exec .burnkey s = .next t ∧ t.flash = fl ∧ (s.fuses.custKey ≠ 0 → ended t 4 ∧ t.fuses = s.fuses) ∧
        (s.fuses.custKey = 0 → fl.headerFail (!b.slot) = none → fl.sigFail (!b.slot) true = none → fl.sigFail (!b.slot) false = none →
          t.boot = { b with result := 0, doneFlash := true, custblank := false } ∧ t.cells = s.cells ∧
          t.fuses = { s.fuses with custKey := sha256 (fl.cpk (!b.slot)) })) ∧
      (x.op = 5 → ∃ t, exec .restart s = .next t ∧ off t true ∧ t.boot = .reset)) ∧
    (∀ x : FlashOp, s.hubOn = true → b.busy = some x → b.doneFlash = true →
      exec .flashOpDone s = .next { s with boot := { b with busy := none, doneFlash := false } })

/-- R485, R486, R488, R493 to R495: the governor takes the smallest divider that keeps within its cap, at once upward and by one downward; a JTAG
instruction captures its data register; an SMBus read answers its bytes, and the later ones only from the end of PHASE 2. -/
def Obligations.ServiceResults : Prop :=
  ∀ s : State,
    let x := s.gov
    (∀ (tj : Int) (mv pa pf : Nat), s.hubOn = true → x.windowAt + 1800 ≤ s.clk.hc → ∃ t r, exec (.governorWindow tj mv pa pf) s = .next t ∧
      let k := x.point (tempStep (tj / 2)) (supplyBand mv)
      let d := s.clk.d.toNat
      t.clk.d.toNat = (if d < r then r else if r < d then d - 1 else d) ∧ k.2 ≤ r ∧ 64 ≤ r ∧ r ≤ 128 ∧
        (∀ i, k.2 ≤ i → i < r → k.1 * i < pa * 64 + pf * i) ∧ (r < 128 → pa * 64 + pf * r ≤ k.1 * r) ∧
        t.gov.pest.toNat = min 0xFFF (pa + pf) ∧ t.gov.pcap.toNat = k.1 ∧ t.gov.tstep.toNat = tempStep (tj / 2) ∧
        t.gov.band.toNat = supplyBand mv ∧ t.gov.windowAt = x.windowAt + 1800 ∧
        t.gov.stretched.toNat = (if 64 < d then min 0xFFFF (x.stretched.toNat + 1) else x.stretched.toNat) ∧ t.cells = s.cells) ∧
    (∀ level : Bool, exec (.auxSense level) s = .next { s with pins := { s.pins with aux := level } }) ∧
    (s.clk.powered = true →
      let reads (i : Instr) (v n : Nat) : Prop := exec i s = .next { s with pins := { s.pins with answer := some (leBytes v n) } }
      exec .bypass s = .next { s with pins := { s.pins with jtag := .bypass, scan := [false], driven := false } } ∧
      (∃ l, exec .idcode s = .next { s with pins := { s.pins with jtag := .idcode, scan := l, driven := false } } ∧ l.length = 32 ∧
        l.getD 0 false = true ∧ (∀ i < 16, l.getD (12 + i) false = Nat.testBit 0xE825 i) ∧ ∀ i < 4, l.getD (28 + i) false = Nat.testBit 1 i) ∧
      (∀ l : List Bool, exec (.samplePreload l) s = .next { s with pins := { s.pins with jtag := .samplePreload, scan := l, driven := false } } ∧
        (s.pins.scanen = true → exec (.extest l) s = .next { s with pins := { s.pins with jtag := .extest, scan := l, driven := true } })) ∧
      reads .smbusModStat (1 + (if s.pins.aux then 2 ^ 8 else 0) + (if s.pins.scanen then 2 ^ 9 else 0)) 8 ∧
      reads .smbusBootStat s.bootNow.stat 8 ∧
      (∀ v : BitVec 16, reads (.smbusInputVoltage v) v.toNat 2 ∧ reads (.smbusInputCurrent v) v.toNat 2 ∧ reads (.smbusInputPower v) v.toNat 2 ∧
        reads (.smbusJunction v) v.toNat 2 ∧ reads (.smbusCoolantInlet v) v.toNat 2) ∧
      (∀ v : BitVec 128, reads (.smbusRailVoltages v) v.toNat 16) ∧
      (s.boot.fwUp = true →
        exec .smbusGovStat s = .next { s with gov := { x with stretched := 0 },
                                              pins := { s.pins with answer := some (leBytes s.govStat 8) } } ∧
        exec .smbusSafeStat s = .next { s with safe := { s.safe with lost := 0 },
                                               pins := { s.pins with answer := some (leBytes s.safe.stat 8) } } ∧
        (∀ i : Byte, exec (.smbusLogIndex i true) s = .next { s with pins := { s.pins with logIndex := i, answer := some [] } }) ∧
        (∃ bs, exec .smbusLogRead s = .next { s with pins := { s.pins with answer := some bs } } ∧ bs.length = 64 ∧
          ∀ i < 8, (bs.drop (8 * i)).take 8 = leBytes ((s.safe.log.get [] s.pins.logIndex.toNat).getD i 0).toNat 8) ∧
        (∀ msg : BitVec 256, s.clk.stopped = false → ∃ t, exec (.smbusTimeOfDay msg true) s = .next t ∧ t.pins.answer = some [] ∧
          let w (i : Nat) : Word64 := msg.extractLsb' (64 * i) 64
          (timeBad [w 0, w 1, w 2, w 3] 32 = true → t.time = s.time) ∧
          (timeBad [w 0, w 1, w 2, w 3] 32 = false → t.disp.arbSeq = s.disp.arbSeq + 1 ∧
            (s.time.msgOrder ≤ s.disp.nextOrder → t.time.mode.toNat = msg.toNat % 4 ∧ t.time.xtime = w 1 ∧ t.time.ptmns = w 2)))) ∧
      (s.clk.stopped = false → s.boot.phase = 15 → ∃ t, exec (.smbusRestart 0x5A true) s = .next t ∧ t.boot = .reset ∧ t.cells = [] ∧
        t.flash = s.flash ∧ t.fuses = s.fuses ∧ t.clk.powered = true ∧ t.pins.answer = some []))

/-- R458 to R481: a sample copies the counters with its own cc in them; marks and other records take a place in the queue, from which they go into
the ring in HBM; a Survey starts while none runs and no Eclipse is set, reads its 1,610 entries at most one an hc, and is counted; at the end of its
tick hc, or at once, the module freezes, and a release lets it go on; the observation window reads 64 bytes as stored. -/
def Obligations.ObservationResults : Prop :=
  ∀ (g : CellId) (by' : Initiator) (s : State),
    let c := s.cell g
    let x := s.stops
    let stands (u t : State) : Prop :=
      t.clk.frozen = true ∧ t.clk.cc = u.clk.cc ∧ t.clk.frozenAt = u.clk.hc ∧ t.stops.st = 2 ∧ t.stops.survey = none ∧ t.stops.cut = none ∧
        t.stops.snapdone = u.obs.en ∧ ∀ h, (t.cell h).pil = (u.cell h).pil ∧ (t.cell h).ls = (u.cell h).ls ∧ (t.cell h).slice = (u.cell h).slice ∧
          (t.cell h).vec = (u.cell h).vec ∧ (t.cell h).arr = (u.cell h).arr ∧ (t.cell h).exc = (u.cell h).exc
    let still : Prop := x.st = 2 ∧ x.cut = none ∧ (∀ q, (s.queue q).ring = []) ∧ s.opt.downDue = [] ∧ s.disp.portDue = [] ∧ s.obs.prio.length < 16
    let goes (t : State) : Prop := t.clk = { s.clk with frozen := false } ∧ t.stops = { x with st := 0 } ∧ t.time = s.time ∧ t.hbm = s.hbm
    (s.writes by' = true →
      (∃ t, exec (.sample g by') s = .next t ∧ s.sameBut t g ∧ (t.cell g).trc.svalid = true ∧ (t.cell g).trc.stag = c.trc.tag ∧
        (t.cell g).trc.samples.toNat = min 0xFFFF (c.trc.samples.toNat + 1) ∧ ∀ e < 8,
          let a := c.trc.engine e
          let b := (t.cell g).trc.engine e
          let on := decide (s.clk.cc < a.busyTo) || a.works s.clk.cc
          b.busy = a.busy ∧ b.stall = a.stall ∧ b.idle = a.idle ∧ b.sBusy = min (a.busy + b2n on) (2 ^ 48 - 1) ∧
            (a.whyAt s.clk.cc = 0 → b.sStall = a.stall ∧ b.sIdle = min (a.idle + b2n (!on)) (2 ^ 48 - 1)) ∧
            (a.whyAt s.clk.cc ≠ 0 → b.sIdle = a.idle ∧ b.sStall = min (a.stall + b2n (!on)) (2 ^ 48 - 1))) ∧
      (∀ (k : BitVec 2) (v : Word64), ∃ t, exec (.trcSelWrite g by' k v) s = .next t ∧ s.sameBut t g ∧
        (t.cell g).trc.selk k.toNat = { c.trc.selk k.toNat with eng := v.extractLsb' 0 4, reason := v.extractLsb' 4 8, count := 0, fresh := true } ∧
        ∀ j, j ≠ k → (t.cell g).trc.selk j.toNat = c.trc.selk j.toNat) ∧
      (x.survey = none → x.st = 0 → ∃ t r, exec (.survey by') s = .next t ∧ t.cells = s.cells ∧
        t.stops = { x with survey := some r, partial' := t.stops.partial' } ∧ r.head.t0 = s.time.track ∧ r.start = s.clk.hc ∧ r.auto = none) ∧
      (x.survey ≠ none ∨ x.st ≠ 0 → exec (.survey by') s = .next s) ∧
      (x.st ≠ 2 → ∃ t, exec (.stopNow by') s = .next t ∧ stands s t ∧ t.stops.immed = true ∧ t.stops.tick = s.time.track ∧ t.stops.rel = 0 ∧
        (s.time.changes = [] → t.disp.arbSeq = s.disp.arbSeq + 1) ∧
        (s.obs.en = false → s.clk.hc ≤ t.clk.hc ∧ t.clk.hc ≤ s.clk.hc + 40)) ∧
      (x.st = 2 → exec (.stopNow by') s = .next s) ∧
      (still → ∃ t, exec (.trcEclRelease by') s = .next t ∧ goes t ∧ t.disp.arbSeq = s.disp.arbSeq + 1) ∧
      (x.st = 1 → ∃ t, exec (.trcEclCancel by') s = .next t ∧ t.stops = { x with st := 0 } ∧ t.cells = s.cells ∧
        t.disp.arbSeq = s.disp.arbSeq + 1) ∧
      (∀ a : BitVec 46, exec (.obswinRead by' a) s =
        .next { s with stops := { x with winReady := false, winBusy := true, winAddr := a } })) ∧
    (∀ (h : CellId) (v : Word64), s.writes (.pilot h) = true → ∃ t, exec (.mark g (.pilot h) v) s = .next t ∧
      (c.out ≠ [] → t.obs = s.obs ∧ t = s.updCell g fun c => { c with out := c.out ++ [.note s.time.track 0x10 0 v 0] }) ∧
      (c.out = [] → t.cells = s.cells ∧
        (s.obs.en = true → s.obs.logMib ≠ 0 → s.obs.queue.length < 1024 → t.obs = { s.obs with queue := s.obs.queue ++
          [⟨[logDw0 0x10 0xF g.toNat s.time.track, 0, v, 0], false⟩] }) ∧
        (s.obs.en = false → t.obs.queue = s.obs.queue ∧ t.obs.drops.toNat = min 0xFFFFFFFF (s.obs.drops.toNat + 1)))) ∧
    (s.hubOn = true →
      (∀ (r : LogRec) (rest : List LogRec), s.obs.en = true → s.obs.logMib ≠ 0 → s.obs.lost = 0 → s.obs.prio = [] → s.obs.queue = r :: rest →
        s.obs.window = s.clk.hc / 1024 → s.obs.spent < 5242 → r.dw.length = 4 →
        let off := s.obs.area + 32 * (s.obs.widx.toNat % (s.obs.logMib.toNat * 32768))
        s.hbm.fencedAt off = false → ∃ t, exec .logbookWrite s = .next t ∧ t.obs.queue = rest ∧ t.obs.widx = s.obs.widx + 1 ∧
          t.cells = s.cells ∧ (∀ i < 32, t.hbm.mem.read (off + i) = (dwBytes r.dw).getD i 0) ∧
          ∀ a, (a < off ∨ off + 32 ≤ a) → t.hbm.mem.read a = s.hbm.mem.read a) ∧
      (∀ r : SurveyRun, s.clk.frozen = false → x.survey = some r →
        let ended (t : State) : Prop := t.stops.survey = none ∧ t.cells = s.cells ∧ t.stops.surveys.toNat = min 0xFFFF (x.surveys.toNat + 1)
        (1610 ≤ r.pos → ∃ t, exec .surveyDone s = .next t ∧ ended t) ∧
        (r.pos < 1610 → s.obs.en = false → s.cells = [] → s.opt.ports = [] → s.time.changes = [] → x.st = 0 → s.clk.phase < 128 → s.clk.d ≠ 0 →
          ∃ t, exec .surveyDone s = .next t ∧ ended t ∧ r.start + 1610 ≤ t.clk.hc)) ∧
      (x.st = 1 → s.clk.frozen = false → s.clk.phase < 128 → s.clk.d ≠ 0 → x.tick ≤ s.time.track → s.time.changes = [] →
        let k := s.clk.periodsTo (s.clk.hc + 1)
        let u := s.flow k k
        ∃ t, exec .eclipseTick s = .next t ∧ stands u t ∧ t.stops.immed = false ∧ t.stops.tick = u.stops.tick) ∧
      (still → x.rel ≠ 0 → x.rel ≤ s.time.track → ∃ t, exec .reltimeRelease s = .next t ∧ goes t) ∧
      (x.winBusy = true → ∃ t, exec .obswinReady s = .next t ∧ t.stops.winReady = true ∧ t.stops.winBusy = false ∧
        ((∀ h, (s.cell h).slice.soft = []) → t.cells = s.cells) ∧
        (∀ o, place s.hbmBytes 0 (x.winAddr.toNat * 64) = .hbm o → s.hbm.fencedAt o = false → t.stops.winData = bytesDw 8 (s.hbm.mem.readBytes o 64)) ∧
        (place s.hbmBytes 0 (x.winAddr.toNat * 64) = .hole → t.stops.winData = List.replicate 8 0)))
end

