-- ==== Sys2Proof/Laws/Table.lean ====
section
/-! SUPPORT. Reading and writing of sparse tables and byte stores: a read after a write, and the canonical form of a store, which
every memory operation keeps. -/

namespace Sys2Proof.Machine

/-! Tables. -/

theorem Tbl.get_insert_same {α : Type} (d : α) (t : Tbl α) (k : Nat) (v : α) (h : ∀ e ∈ t, e.1 ≠ k) :
    (t.insert k v).get d k = v := by
  induction t with
  | nil => simp [Tbl.insert, Tbl.get]
  | cons e rest ih =>
    obtain ⟨j, w⟩ := e
    have hj : j ≠ k := h (j, w) (by simp)
    simp only [Tbl.insert]
    split
    · simp only [Tbl.get, hj, if_false]
      exact ih fun e he => h e (by simp [he])
    · simp [Tbl.get]

theorem Tbl.get_insert_other {α : Type} (d : α) (t : Tbl α) (k j : Nat) (v : α) (h : j ≠ k) :
    (t.insert k v).get d j = t.get d j := by
  induction t with
  | nil => simp [Tbl.insert, Tbl.get, Ne.symm h]
  | cons e rest ih =>
    obtain ⟨i, w⟩ := e
    simp only [Tbl.insert]
    split
    · simp only [Tbl.get, ih]
    · simp [Tbl.get, Ne.symm h]

theorem Tbl.get_erase_other {α : Type} (d : α) (t : Tbl α) (k j : Nat) (h : j ≠ k) : (t.erase k).get d j = t.get d j := by
  induction t with
  | nil => rfl
  | cons e rest ih =>
    obtain ⟨i, w⟩ := e
    simp only [Tbl.erase, List.filter_cons] at ih ⊢
    split
    · simp only [Tbl.get, ih]
    · rename_i hi
      simp only [bne_iff_ne, ne_eq, Decidable.not_not] at hi
      subst hi
      simp [Tbl.get, Ne.symm h, ih]

theorem Tbl.erase_keys {α : Type} (t : Tbl α) (k : Nat) : ∀ e ∈ t.erase k, e.1 ≠ k := by
  intro e he
  simpa [Tbl.erase] using (List.mem_filter.mp he).2

/-- A read after a write of the same entry. -/
@[simp] theorem Tbl.get_set_same {α : Type} (d : α) (t : Tbl α) (k : Nat) (v : α) : (t.set k v).get d k = v :=
  Tbl.get_insert_same d _ k v (Tbl.erase_keys t k)

/-- A write leaves every other entry. -/
theorem Tbl.get_set_other {α : Type} (d : α) (t : Tbl α) (k j : Nat) (v : α) (h : j ≠ k) :
    (t.set k v).get d j = t.get d j := by
  rw [Tbl.set, Tbl.get_insert_other d _ k j v h, Tbl.get_erase_other d t k j h]

theorem Tbl.erase_insert {α : Type} (t : Tbl α) (k : Nat) (v : α) : (t.insert k v).erase k = t.erase k := by
  induction t with
  | nil => simp [Tbl.insert, Tbl.erase]
  | cons e rest ih =>
    obtain ⟨j, w⟩ := e
    simp only [Tbl.insert]
    split
    · simp only [Tbl.erase, List.filter_cons] at ih ⊢
      split <;> simp [ih]
    · simp [Tbl.erase]

theorem Tbl.erase_erase {α : Type} (t : Tbl α) (k : Nat) : (t.erase k).erase k = t.erase k := by
  simp [Tbl.erase, List.filter_filter]

/-- Of two writes of one entry the later one remains. -/
@[simp] theorem Tbl.set_set {α : Type} (t : Tbl α) (k : Nat) (v w : α) : (t.set k v).set k w = t.set k w := by
  rw [Tbl.set, Tbl.set, Tbl.erase_insert, Tbl.erase_erase]; rfl

/-! Byte stores. -/

theorem cellsRead_filter_ne (l : List (Nat × Byte)) (a b : Nat) (h : b ≠ a) : cellsRead (cellsErase l a) b = cellsRead l b :=
  by
  induction l with
  | nil => rfl
  | cons e rest ih =>
    obtain ⟨k, w⟩ := e
    simp only [cellsErase, List.filter_cons] at ih ⊢
    split
    · simp only [cellsRead, ih]
    · rename_i hk
      simp only [bne_iff_ne, ne_eq, Decidable.not_not] at hk
      subst hk
      simp [cellsRead, Ne.symm h, ih]

theorem cellsRead_erase_same (l : List (Nat × Byte)) (a : Nat) : cellsRead (cellsErase l a) a = 0 := by
  induction l with
  | nil => rfl
  | cons e rest ih =>
    obtain ⟨k, w⟩ := e
    simp only [cellsErase, List.filter_cons] at ih ⊢
    split
    · rename_i hk
      simp only [bne_iff_ne, ne_eq] at hk
      simp [cellsRead, hk, ih]
    · exact ih

theorem cellsRead_insert_same (l : List (Nat × Byte)) (a : Nat) (v : Byte) (h : ∀ e ∈ l, e.1 ≠ a) :
    cellsRead (cellsInsert l a v) a = v := by
  induction l with
  | nil => simp [cellsInsert, cellsRead]
  | cons e rest ih =>
    obtain ⟨k, w⟩ := e
    have hk : k ≠ a := h (k, w) (by simp)
    simp only [cellsInsert]
    split
    · simp only [cellsRead, hk, if_false]
      exact ih fun e he => h e (by simp [he])
    · simp [cellsRead]

theorem cellsRead_insert_other (l : List (Nat × Byte)) (a b : Nat) (v : Byte) (h : b ≠ a) :
    cellsRead (cellsInsert l a v) b = cellsRead l b := by
  induction l with
  | nil => simp [cellsInsert, cellsRead, Ne.symm h]
  | cons e rest ih =>
    obtain ⟨k, w⟩ := e
    simp only [cellsInsert]
    split
    · simp only [cellsRead, ih]
    · simp [cellsRead, Ne.symm h]

theorem cellsErase_keys (l : List (Nat × Byte)) (a : Nat) : ∀ e ∈ cellsErase l a, e.1 ≠ a := by
  intro e he
  simpa [cellsErase] using (List.mem_filter.mp he).2

/-- A read after a write of the same byte. -/
@[simp] theorem Mem.read_write_same (m : Mem) (a : Nat) (v : Byte) : (m.write a v).read a = v := by
  simp only [Mem.write, Mem.read, cellsWrite]
  split
  · rename_i h; rw [h]; exact cellsRead_erase_same _ _
  · exact cellsRead_insert_same _ _ _ (cellsErase_keys _ _)

/-- A write leaves every other byte. -/
theorem Mem.read_write_other (m : Mem) (a b : Nat) (v : Byte) (h : b ≠ a) : (m.write a v).read b = m.read b := by
  simp only [Mem.write, Mem.read, cellsWrite]
  split
  · exact cellsRead_filter_ne _ _ _ h
  · rw [cellsRead_insert_other _ _ _ _ h, cellsRead_filter_ne _ _ _ h]

/-- Bytes outside a write are left. -/
theorem Mem.read_writeBytes_other (m : Mem) (a b : Nat) (bs : List Byte) (h : b < a ∨ a + bs.length ≤ b) :
    (m.writeBytes a bs).read b = m.read b := by
  induction bs generalizing m a with
  | nil => rfl
  | cons x rest ih =>
    simp only [List.length_cons] at h
    rw [Mem.writeBytes, ih _ _ (by omega), Mem.read_write_other _ _ _ _ (by omega)]

/-- A byte of a write is read back. -/
theorem Mem.read_writeBytes_in (m : Mem) (a i : Nat) (bs : List Byte) (h : i < bs.length) :
    (m.writeBytes a bs).read (a + i) = bs.getD i 0 := by
  induction bs generalizing m a i with
  | nil => simp at h
  | cons x rest ih =>
    rw [Mem.writeBytes]
    cases i with
    | zero => rw [Mem.read_writeBytes_other _ _ _ _ (by omega)]; simp
    | succ n =>
      have := ih (m.write a x) (a + 1) n (by simpa using h)
      rw [show a + (n + 1) = a + 1 + n by omega, this]; simp

/-! The canonical form. -/

theorem cellsErase_pairwise (l : List (Nat × Byte)) (a : Nat) (h : l.Pairwise fun x y => x.1 < y.1) :
    (cellsErase l a).Pairwise fun x y => x.1 < y.1 := h.filter _

theorem mem_cellsInsert {l : List (Nat × Byte)} {a : Nat} {v : Byte} {e : Nat × Byte} (h : e ∈ cellsInsert l a v) :
    e = (a, v) ∨ e ∈ l := by
  induction l with
  | nil => simpa [cellsInsert] using h
  | cons x rest ih =>
    obtain ⟨k, w⟩ := x
    simp only [cellsInsert] at h
    split at h
    · rcases List.mem_cons.mp h with h | h
      · right; simp [h]
      · rcases ih h with h | h
        · left; exact h
        · right; simp [h]
    · rcases List.mem_cons.mp h with h | h
      · left; exact h
      · right; exact h

theorem cellsInsert_pairwise (l : List (Nat × Byte)) (a : Nat) (v : Byte) (h : l.Pairwise fun x y => x.1 < y.1)
    (ha : ∀ e ∈ l, e.1 ≠ a) : (cellsInsert l a v).Pairwise fun x y => x.1 < y.1 := by
  induction l with
  | nil => simp [cellsInsert]
  | cons x rest ih =>
    obtain ⟨k, w⟩ := x
    have hk : k ≠ a := ha (k, w) (by simp)
    simp only [List.pairwise_cons] at h
    simp only [cellsInsert]
    split
    · rename_i hlt
      refine List.pairwise_cons.mpr ⟨fun e he => ?_, ih h.2 fun e he => ha e (by simp [he])⟩
      rcases mem_cellsInsert he with rfl | he
      · exact hlt
      · exact h.1 e he
    · rename_i hlt
      refine List.pairwise_cons.mpr ⟨fun e he => ?_, List.pairwise_cons.mpr h⟩
      rcases List.mem_cons.mp he with rfl | he
      · simp only; omega
      · have := h.1 e he; simp only at this ⊢; omega

theorem Mem.wf_iff (m : Mem) : m.wf = true ↔ m.bytes.Pairwise (fun x y => x.1 < y.1) ∧ ∀ e ∈ m.bytes, e.2 ≠ 0 := by
  simp [Mem.wf]

theorem Mem.wf_empty : Mem.empty.wf = true := by decide

/-- Every write of a byte keeps the canonical form. -/
theorem Mem.wf_write (m : Mem) (a : Nat) (v : Byte) (h : m.wf = true) : (m.write a v).wf = true := by
  rw [Mem.wf_iff] at h ⊢
  simp only [Mem.write, cellsWrite]
  split
  · exact ⟨cellsErase_pairwise _ _ h.1, fun e he => h.2 e (List.mem_filter.mp he).1⟩
  · rename_i hv
    refine ⟨cellsInsert_pairwise _ _ _ (cellsErase_pairwise _ _ h.1) (cellsErase_keys _ _), fun e he => ?_⟩
    rcases mem_cellsInsert he with rfl | he
    · exact hv
    · exact h.2 e (List.mem_filter.mp he).1

theorem Mem.wf_writeBytes (m : Mem) (a : Nat) (bs : List Byte) (h : m.wf = true) : (m.writeBytes a bs).wf = true := by
  induction bs generalizing m a with
  | nil => exact h
  | cons x rest ih => exact ih _ _ (Mem.wf_write m a x h)

theorem Mem.wf_store (m : Mem) (unit a : Nat) (bs : List Byte) (h : m.wf = true) : (m.store unit a bs).wf = true := by
  have := Mem.wf_writeBytes m a bs h
  rw [Mem.wf_iff] at this ⊢
  exact this

theorem Mem.wf_writeN (m : Mem) (a n v : Nat) (h : m.wf = true) : (m.writeN a n v).wf = true := Mem.wf_writeBytes _ _ _ h

theorem Mem.wf_zeroRange (m : Mem) (unit a n : Nat) (h : m.wf = true) : (m.zeroRange unit a n).wf = true := by
  rw [Mem.wf_iff] at h ⊢
  exact ⟨h.1.filter _, fun e he => h.2 e (List.mem_filter.mp he).1⟩

/-- The read of a store of bytes. -/
theorem Mem.read_store_other (m : Mem) (unit a b : Nat) (bs : List Byte) (h : b < a ∨ a + bs.length ≤ b) :
    (m.store unit a bs).read b = m.read b := Mem.read_writeBytes_other m a b bs h

theorem Mem.read_store_in (m : Mem) (unit a i : Nat) (bs : List Byte) (h : i < bs.length) :
    (m.store unit a bs).read (a + i) = bs.getD i 0 := Mem.read_writeBytes_in m a i bs h

end Sys2Proof.Machine
end

