-- ==== Sys2Proof/Laws/State.lean ====
section
/-! SUPPORT. What each update of the state leaves alone: one lemma for each field and update, true by `rfl`, so that no later proof
unfolds a record update; and the cell that an update of cells reads back. -/

namespace Sys2Proof.Machine

/-! Fields of the state. -/

@[simp] theorem State.setCell_pending (s : State) (g : CellId) (c : Cell) : (s.setCell g c).pending = s.pending := rfl
@[simp] theorem State.setCell_fresh (s : State) (g : CellId) (c : Cell) : (s.setCell g c).fresh = s.fresh := rfl
@[simp] theorem State.setCell_clk (s : State) (g : CellId) (c : Cell) : (s.setCell g c).clk = s.clk := rfl
@[simp] theorem State.setCell_hbm (s : State) (g : CellId) (c : Cell) : (s.setCell g c).hbm = s.hbm := rfl
@[simp] theorem State.setCell_time (s : State) (g : CellId) (c : Cell) : (s.setCell g c).time = s.time := rfl
@[simp] theorem State.setCell_opt (s : State) (g : CellId) (c : Cell) : (s.setCell g c).opt = s.opt := rfl
@[simp] theorem State.setCell_orbit (s : State) (g : CellId) (c : Cell) : (s.setCell g c).orbit = s.orbit := rfl
@[simp] theorem State.setCell_obs (s : State) (g : CellId) (c : Cell) : (s.setCell g c).obs = s.obs := rfl
@[simp] theorem State.setCell_hubRecs (s : State) (g : CellId) (c : Cell) : (s.setCell g c).hubRecs = s.hubRecs := rfl
@[simp] theorem State.setCell_ports (s : State) (g : CellId) (c : Cell) : (s.setCell g c).ports = s.ports := rfl
@[simp] theorem State.setCell_queues (s : State) (g : CellId) (c : Cell) : (s.setCell g c).queues = s.queues := rfl
@[simp] theorem State.setCell_groups (s : State) (g : CellId) (c : Cell) : (s.setCell g c).groups = s.groups := rfl
@[simp] theorem State.setCell_disp (s : State) (g : CellId) (c : Cell) : (s.setCell g c).disp = s.disp := rfl
@[simp] theorem State.setCell_boot (s : State) (g : CellId) (c : Cell) : (s.setCell g c).boot = s.boot := rfl
@[simp] theorem State.setCell_flash (s : State) (g : CellId) (c : Cell) : (s.setCell g c).flash = s.flash := rfl
@[simp] theorem State.setCell_fuses (s : State) (g : CellId) (c : Cell) : (s.setCell g c).fuses = s.fuses := rfl
@[simp] theorem State.setCell_safe (s : State) (g : CellId) (c : Cell) : (s.setCell g c).safe = s.safe := rfl
@[simp] theorem State.setCell_stops (s : State) (g : CellId) (c : Cell) : (s.setCell g c).stops = s.stops := rfl
@[simp] theorem State.setCell_gov (s : State) (g : CellId) (c : Cell) : (s.setCell g c).gov = s.gov := rfl
@[simp] theorem State.setCell_pins (s : State) (g : CellId) (c : Cell) : (s.setCell g c).pins = s.pins := rfl

@[simp] theorem State.updCell_pending (s : State) (g : CellId) (f : Cell → Cell) : (s.updCell g f).pending = s.pending := rfl
@[simp] theorem State.updCell_fresh (s : State) (g : CellId) (f : Cell → Cell) : (s.updCell g f).fresh = s.fresh := rfl
@[simp] theorem State.updCell_clk (s : State) (g : CellId) (f : Cell → Cell) : (s.updCell g f).clk = s.clk := rfl
@[simp] theorem State.updCell_hbm (s : State) (g : CellId) (f : Cell → Cell) : (s.updCell g f).hbm = s.hbm := rfl
@[simp] theorem State.updCell_time (s : State) (g : CellId) (f : Cell → Cell) : (s.updCell g f).time = s.time := rfl
@[simp] theorem State.updCell_opt (s : State) (g : CellId) (f : Cell → Cell) : (s.updCell g f).opt = s.opt := rfl
@[simp] theorem State.updCell_orbit (s : State) (g : CellId) (f : Cell → Cell) : (s.updCell g f).orbit = s.orbit := rfl
@[simp] theorem State.updCell_obs (s : State) (g : CellId) (f : Cell → Cell) : (s.updCell g f).obs = s.obs := rfl
@[simp] theorem State.updCell_hubRecs (s : State) (g : CellId) (f : Cell → Cell) : (s.updCell g f).hubRecs = s.hubRecs := rfl
@[simp] theorem State.updCell_ports (s : State) (g : CellId) (f : Cell → Cell) : (s.updCell g f).ports = s.ports := rfl
@[simp] theorem State.updCell_queues (s : State) (g : CellId) (f : Cell → Cell) : (s.updCell g f).queues = s.queues := rfl
@[simp] theorem State.updCell_groups (s : State) (g : CellId) (f : Cell → Cell) : (s.updCell g f).groups = s.groups := rfl
@[simp] theorem State.updCell_disp (s : State) (g : CellId) (f : Cell → Cell) : (s.updCell g f).disp = s.disp := rfl
@[simp] theorem State.updCell_boot (s : State) (g : CellId) (f : Cell → Cell) : (s.updCell g f).boot = s.boot := rfl
@[simp] theorem State.updCell_flash (s : State) (g : CellId) (f : Cell → Cell) : (s.updCell g f).flash = s.flash := rfl
@[simp] theorem State.updCell_fuses (s : State) (g : CellId) (f : Cell → Cell) : (s.updCell g f).fuses = s.fuses := rfl
@[simp] theorem State.updCell_safe (s : State) (g : CellId) (f : Cell → Cell) : (s.updCell g f).safe = s.safe := rfl
@[simp] theorem State.updCell_stops (s : State) (g : CellId) (f : Cell → Cell) : (s.updCell g f).stops = s.stops := rfl
@[simp] theorem State.updCell_gov (s : State) (g : CellId) (f : Cell → Cell) : (s.updCell g f).gov = s.gov := rfl
@[simp] theorem State.updCell_pins (s : State) (g : CellId) (f : Cell → Cell) : (s.updCell g f).pins = s.pins := rfl

@[simp] theorem State.updPort_pending (s : State) (p : LinkId) (f : OptPort → OptPort) : (s.updPort p f).pending = s.pending := rfl
@[simp] theorem State.updPort_fresh (s : State) (p : LinkId) (f : OptPort → OptPort) : (s.updPort p f).fresh = s.fresh := rfl
@[simp] theorem State.updPort_clk (s : State) (p : LinkId) (f : OptPort → OptPort) : (s.updPort p f).clk = s.clk := rfl
@[simp] theorem State.updPort_cells (s : State) (p : LinkId) (f : OptPort → OptPort) : (s.updPort p f).cells = s.cells := rfl
@[simp] theorem State.updPort_hbm (s : State) (p : LinkId) (f : OptPort → OptPort) : (s.updPort p f).hbm = s.hbm := rfl
@[simp] theorem State.updPort_time (s : State) (p : LinkId) (f : OptPort → OptPort) : (s.updPort p f).time = s.time := rfl
@[simp] theorem State.updPort_orbit (s : State) (p : LinkId) (f : OptPort → OptPort) : (s.updPort p f).orbit = s.orbit := rfl
@[simp] theorem State.updPort_obs (s : State) (p : LinkId) (f : OptPort → OptPort) : (s.updPort p f).obs = s.obs := rfl
@[simp] theorem State.updPort_hubRecs (s : State) (p : LinkId) (f : OptPort → OptPort) : (s.updPort p f).hubRecs = s.hubRecs := rfl
@[simp] theorem State.updPort_ports (s : State) (p : LinkId) (f : OptPort → OptPort) : (s.updPort p f).ports = s.ports := rfl
@[simp] theorem State.updPort_queues (s : State) (p : LinkId) (f : OptPort → OptPort) : (s.updPort p f).queues = s.queues := rfl
@[simp] theorem State.updPort_groups (s : State) (p : LinkId) (f : OptPort → OptPort) : (s.updPort p f).groups = s.groups := rfl
@[simp] theorem State.updPort_disp (s : State) (p : LinkId) (f : OptPort → OptPort) : (s.updPort p f).disp = s.disp := rfl
@[simp] theorem State.updPort_boot (s : State) (p : LinkId) (f : OptPort → OptPort) : (s.updPort p f).boot = s.boot := rfl
@[simp] theorem State.updPort_flash (s : State) (p : LinkId) (f : OptPort → OptPort) : (s.updPort p f).flash = s.flash := rfl
@[simp] theorem State.updPort_fuses (s : State) (p : LinkId) (f : OptPort → OptPort) : (s.updPort p f).fuses = s.fuses := rfl
@[simp] theorem State.updPort_safe (s : State) (p : LinkId) (f : OptPort → OptPort) : (s.updPort p f).safe = s.safe := rfl
@[simp] theorem State.updPort_stops (s : State) (p : LinkId) (f : OptPort → OptPort) : (s.updPort p f).stops = s.stops := rfl
@[simp] theorem State.updPort_gov (s : State) (p : LinkId) (f : OptPort → OptPort) : (s.updPort p f).gov = s.gov := rfl
@[simp] theorem State.updPort_pins (s : State) (p : LinkId) (f : OptPort → OptPort) : (s.updPort p f).pins = s.pins := rfl

@[simp] theorem State.updPport_pending (s : State) (p : PortId) (f : PciPort → PciPort) : (s.updPport p f).pending = s.pending := rfl
@[simp] theorem State.updPport_fresh (s : State) (p : PortId) (f : PciPort → PciPort) : (s.updPport p f).fresh = s.fresh := rfl
@[simp] theorem State.updPport_clk (s : State) (p : PortId) (f : PciPort → PciPort) : (s.updPport p f).clk = s.clk := rfl
@[simp] theorem State.updPport_cells (s : State) (p : PortId) (f : PciPort → PciPort) : (s.updPport p f).cells = s.cells := rfl
@[simp] theorem State.updPport_hbm (s : State) (p : PortId) (f : PciPort → PciPort) : (s.updPport p f).hbm = s.hbm := rfl
@[simp] theorem State.updPport_time (s : State) (p : PortId) (f : PciPort → PciPort) : (s.updPport p f).time = s.time := rfl
@[simp] theorem State.updPport_opt (s : State) (p : PortId) (f : PciPort → PciPort) : (s.updPport p f).opt = s.opt := rfl
@[simp] theorem State.updPport_orbit (s : State) (p : PortId) (f : PciPort → PciPort) : (s.updPport p f).orbit = s.orbit := rfl
@[simp] theorem State.updPport_obs (s : State) (p : PortId) (f : PciPort → PciPort) : (s.updPport p f).obs = s.obs := rfl
@[simp] theorem State.updPport_hubRecs (s : State) (p : PortId) (f : PciPort → PciPort) : (s.updPport p f).hubRecs = s.hubRecs := rfl
@[simp] theorem State.updPport_queues (s : State) (p : PortId) (f : PciPort → PciPort) : (s.updPport p f).queues = s.queues := rfl
@[simp] theorem State.updPport_groups (s : State) (p : PortId) (f : PciPort → PciPort) : (s.updPport p f).groups = s.groups := rfl
@[simp] theorem State.updPport_disp (s : State) (p : PortId) (f : PciPort → PciPort) : (s.updPport p f).disp = s.disp := rfl
@[simp] theorem State.updPport_boot (s : State) (p : PortId) (f : PciPort → PciPort) : (s.updPport p f).boot = s.boot := rfl
@[simp] theorem State.updPport_flash (s : State) (p : PortId) (f : PciPort → PciPort) : (s.updPport p f).flash = s.flash := rfl
@[simp] theorem State.updPport_fuses (s : State) (p : PortId) (f : PciPort → PciPort) : (s.updPport p f).fuses = s.fuses := rfl
@[simp] theorem State.updPport_safe (s : State) (p : PortId) (f : PciPort → PciPort) : (s.updPport p f).safe = s.safe := rfl
@[simp] theorem State.updPport_stops (s : State) (p : PortId) (f : PciPort → PciPort) : (s.updPport p f).stops = s.stops := rfl
@[simp] theorem State.updPport_gov (s : State) (p : PortId) (f : PciPort → PciPort) : (s.updPport p f).gov = s.gov := rfl
@[simp] theorem State.updPport_pins (s : State) (p : PortId) (f : PciPort → PciPort) : (s.updPport p f).pins = s.pins := rfl

@[simp] theorem State.updQueue_pending (s : State) (q : QueueId) (f : Queue → Queue) : (s.updQueue q f).pending = s.pending := rfl
@[simp] theorem State.updQueue_fresh (s : State) (q : QueueId) (f : Queue → Queue) : (s.updQueue q f).fresh = s.fresh := rfl
@[simp] theorem State.updQueue_clk (s : State) (q : QueueId) (f : Queue → Queue) : (s.updQueue q f).clk = s.clk := rfl
@[simp] theorem State.updQueue_cells (s : State) (q : QueueId) (f : Queue → Queue) : (s.updQueue q f).cells = s.cells := rfl
@[simp] theorem State.updQueue_hbm (s : State) (q : QueueId) (f : Queue → Queue) : (s.updQueue q f).hbm = s.hbm := rfl
@[simp] theorem State.updQueue_time (s : State) (q : QueueId) (f : Queue → Queue) : (s.updQueue q f).time = s.time := rfl
@[simp] theorem State.updQueue_opt (s : State) (q : QueueId) (f : Queue → Queue) : (s.updQueue q f).opt = s.opt := rfl
@[simp] theorem State.updQueue_orbit (s : State) (q : QueueId) (f : Queue → Queue) : (s.updQueue q f).orbit = s.orbit := rfl
@[simp] theorem State.updQueue_obs (s : State) (q : QueueId) (f : Queue → Queue) : (s.updQueue q f).obs = s.obs := rfl
@[simp] theorem State.updQueue_hubRecs (s : State) (q : QueueId) (f : Queue → Queue) : (s.updQueue q f).hubRecs = s.hubRecs := rfl
@[simp] theorem State.updQueue_ports (s : State) (q : QueueId) (f : Queue → Queue) : (s.updQueue q f).ports = s.ports := rfl
@[simp] theorem State.updQueue_groups (s : State) (q : QueueId) (f : Queue → Queue) : (s.updQueue q f).groups = s.groups := rfl
@[simp] theorem State.updQueue_disp (s : State) (q : QueueId) (f : Queue → Queue) : (s.updQueue q f).disp = s.disp := rfl
@[simp] theorem State.updQueue_boot (s : State) (q : QueueId) (f : Queue → Queue) : (s.updQueue q f).boot = s.boot := rfl
@[simp] theorem State.updQueue_flash (s : State) (q : QueueId) (f : Queue → Queue) : (s.updQueue q f).flash = s.flash := rfl
@[simp] theorem State.updQueue_fuses (s : State) (q : QueueId) (f : Queue → Queue) : (s.updQueue q f).fuses = s.fuses := rfl
@[simp] theorem State.updQueue_safe (s : State) (q : QueueId) (f : Queue → Queue) : (s.updQueue q f).safe = s.safe := rfl
@[simp] theorem State.updQueue_stops (s : State) (q : QueueId) (f : Queue → Queue) : (s.updQueue q f).stops = s.stops := rfl
@[simp] theorem State.updQueue_gov (s : State) (q : QueueId) (f : Queue → Queue) : (s.updQueue q f).gov = s.gov := rfl
@[simp] theorem State.updQueue_pins (s : State) (q : QueueId) (f : Queue → Queue) : (s.updQueue q f).pins = s.pins := rfl

@[simp] theorem State.setCmd_pending (s : State) (c : Cmd) : (s.setCmd c).pending = s.pending := rfl
@[simp] theorem State.setCmd_fresh (s : State) (c : Cmd) : (s.setCmd c).fresh = s.fresh := rfl
@[simp] theorem State.setCmd_clk (s : State) (c : Cmd) : (s.setCmd c).clk = s.clk := rfl
@[simp] theorem State.setCmd_cells (s : State) (c : Cmd) : (s.setCmd c).cells = s.cells := rfl
@[simp] theorem State.setCmd_hbm (s : State) (c : Cmd) : (s.setCmd c).hbm = s.hbm := rfl
@[simp] theorem State.setCmd_time (s : State) (c : Cmd) : (s.setCmd c).time = s.time := rfl
@[simp] theorem State.setCmd_opt (s : State) (c : Cmd) : (s.setCmd c).opt = s.opt := rfl
@[simp] theorem State.setCmd_orbit (s : State) (c : Cmd) : (s.setCmd c).orbit = s.orbit := rfl
@[simp] theorem State.setCmd_obs (s : State) (c : Cmd) : (s.setCmd c).obs = s.obs := rfl
@[simp] theorem State.setCmd_hubRecs (s : State) (c : Cmd) : (s.setCmd c).hubRecs = s.hubRecs := rfl
@[simp] theorem State.setCmd_ports (s : State) (c : Cmd) : (s.setCmd c).ports = s.ports := rfl
@[simp] theorem State.setCmd_queues (s : State) (c : Cmd) : (s.setCmd c).queues = s.queues := rfl
@[simp] theorem State.setCmd_groups (s : State) (c : Cmd) : (s.setCmd c).groups = s.groups := rfl
@[simp] theorem State.setCmd_boot (s : State) (c : Cmd) : (s.setCmd c).boot = s.boot := rfl
@[simp] theorem State.setCmd_flash (s : State) (c : Cmd) : (s.setCmd c).flash = s.flash := rfl
@[simp] theorem State.setCmd_fuses (s : State) (c : Cmd) : (s.setCmd c).fuses = s.fuses := rfl
@[simp] theorem State.setCmd_safe (s : State) (c : Cmd) : (s.setCmd c).safe = s.safe := rfl
@[simp] theorem State.setCmd_stops (s : State) (c : Cmd) : (s.setCmd c).stops = s.stops := rfl
@[simp] theorem State.setCmd_gov (s : State) (c : Cmd) : (s.setCmd c).gov = s.gov := rfl
@[simp] theorem State.setCmd_pins (s : State) (c : Cmd) : (s.setCmd c).pins = s.pins := rfl

@[simp] theorem State.raise_pending (s : State) (g : CellId) (m a c e : Byte) (k n : Nat) : (s.raise g m a c e k n).pending = s.pending := rfl
@[simp] theorem State.raise_fresh (s : State) (g : CellId) (m a c e : Byte) (k n : Nat) : (s.raise g m a c e k n).fresh = s.fresh := rfl
@[simp] theorem State.raise_clk (s : State) (g : CellId) (m a c e : Byte) (k n : Nat) : (s.raise g m a c e k n).clk = s.clk := rfl
@[simp] theorem State.raise_hbm (s : State) (g : CellId) (m a c e : Byte) (k n : Nat) : (s.raise g m a c e k n).hbm = s.hbm := rfl
@[simp] theorem State.raise_time (s : State) (g : CellId) (m a c e : Byte) (k n : Nat) : (s.raise g m a c e k n).time = s.time := rfl
@[simp] theorem State.raise_opt (s : State) (g : CellId) (m a c e : Byte) (k n : Nat) : (s.raise g m a c e k n).opt = s.opt := rfl
@[simp] theorem State.raise_orbit (s : State) (g : CellId) (m a c e : Byte) (k n : Nat) : (s.raise g m a c e k n).orbit = s.orbit := rfl
@[simp] theorem State.raise_obs (s : State) (g : CellId) (m a c e : Byte) (k n : Nat) : (s.raise g m a c e k n).obs = s.obs := rfl
@[simp] theorem State.raise_hubRecs (s : State) (g : CellId) (m a c e : Byte) (k n : Nat) : (s.raise g m a c e k n).hubRecs = s.hubRecs := rfl
@[simp] theorem State.raise_ports (s : State) (g : CellId) (m a c e : Byte) (k n : Nat) : (s.raise g m a c e k n).ports = s.ports := rfl
@[simp] theorem State.raise_queues (s : State) (g : CellId) (m a c e : Byte) (k n : Nat) : (s.raise g m a c e k n).queues = s.queues := rfl
@[simp] theorem State.raise_groups (s : State) (g : CellId) (m a c e : Byte) (k n : Nat) : (s.raise g m a c e k n).groups = s.groups := rfl
@[simp] theorem State.raise_disp (s : State) (g : CellId) (m a c e : Byte) (k n : Nat) : (s.raise g m a c e k n).disp = s.disp := rfl
@[simp] theorem State.raise_boot (s : State) (g : CellId) (m a c e : Byte) (k n : Nat) : (s.raise g m a c e k n).boot = s.boot := rfl
@[simp] theorem State.raise_flash (s : State) (g : CellId) (m a c e : Byte) (k n : Nat) : (s.raise g m a c e k n).flash = s.flash := rfl
@[simp] theorem State.raise_fuses (s : State) (g : CellId) (m a c e : Byte) (k n : Nat) : (s.raise g m a c e k n).fuses = s.fuses := rfl
@[simp] theorem State.raise_safe (s : State) (g : CellId) (m a c e : Byte) (k n : Nat) : (s.raise g m a c e k n).safe = s.safe := rfl
@[simp] theorem State.raise_stops (s : State) (g : CellId) (m a c e : Byte) (k n : Nat) : (s.raise g m a c e k n).stops = s.stops := rfl
@[simp] theorem State.raise_gov (s : State) (g : CellId) (m a c e : Byte) (k n : Nat) : (s.raise g m a c e k n).gov = s.gov := rfl
@[simp] theorem State.raise_pins (s : State) (g : CellId) (m a c e : Byte) (k n : Nat) : (s.raise g m a c e k n).pins = s.pins := rfl

@[simp] theorem State.raiseHub_pending (s : State) (m a c e : Byte) (u k n : Nat) (cmd : Option Nat) : (s.raiseHub m a c e u k n cmd).pending = s.pending := rfl
@[simp] theorem State.raiseHub_fresh (s : State) (m a c e : Byte) (u k n : Nat) (cmd : Option Nat) : (s.raiseHub m a c e u k n cmd).fresh = s.fresh := rfl
@[simp] theorem State.raiseHub_clk (s : State) (m a c e : Byte) (u k n : Nat) (cmd : Option Nat) : (s.raiseHub m a c e u k n cmd).clk = s.clk := rfl
@[simp] theorem State.raiseHub_cells (s : State) (m a c e : Byte) (u k n : Nat) (cmd : Option Nat) : (s.raiseHub m a c e u k n cmd).cells = s.cells := rfl
@[simp] theorem State.raiseHub_hbm (s : State) (m a c e : Byte) (u k n : Nat) (cmd : Option Nat) : (s.raiseHub m a c e u k n cmd).hbm = s.hbm := rfl
@[simp] theorem State.raiseHub_time (s : State) (m a c e : Byte) (u k n : Nat) (cmd : Option Nat) : (s.raiseHub m a c e u k n cmd).time = s.time := rfl
@[simp] theorem State.raiseHub_opt (s : State) (m a c e : Byte) (u k n : Nat) (cmd : Option Nat) : (s.raiseHub m a c e u k n cmd).opt = s.opt := rfl
@[simp] theorem State.raiseHub_orbit (s : State) (m a c e : Byte) (u k n : Nat) (cmd : Option Nat) : (s.raiseHub m a c e u k n cmd).orbit = s.orbit := rfl
@[simp] theorem State.raiseHub_obs (s : State) (m a c e : Byte) (u k n : Nat) (cmd : Option Nat) : (s.raiseHub m a c e u k n cmd).obs = s.obs := rfl
@[simp] theorem State.raiseHub_ports (s : State) (m a c e : Byte) (u k n : Nat) (cmd : Option Nat) : (s.raiseHub m a c e u k n cmd).ports = s.ports := rfl
@[simp] theorem State.raiseHub_queues (s : State) (m a c e : Byte) (u k n : Nat) (cmd : Option Nat) : (s.raiseHub m a c e u k n cmd).queues = s.queues := rfl
@[simp] theorem State.raiseHub_groups (s : State) (m a c e : Byte) (u k n : Nat) (cmd : Option Nat) : (s.raiseHub m a c e u k n cmd).groups = s.groups := rfl
@[simp] theorem State.raiseHub_disp (s : State) (m a c e : Byte) (u k n : Nat) (cmd : Option Nat) : (s.raiseHub m a c e u k n cmd).disp = s.disp := rfl
@[simp] theorem State.raiseHub_boot (s : State) (m a c e : Byte) (u k n : Nat) (cmd : Option Nat) : (s.raiseHub m a c e u k n cmd).boot = s.boot := rfl
@[simp] theorem State.raiseHub_flash (s : State) (m a c e : Byte) (u k n : Nat) (cmd : Option Nat) : (s.raiseHub m a c e u k n cmd).flash = s.flash := rfl
@[simp] theorem State.raiseHub_fuses (s : State) (m a c e : Byte) (u k n : Nat) (cmd : Option Nat) : (s.raiseHub m a c e u k n cmd).fuses = s.fuses := rfl
@[simp] theorem State.raiseHub_safe (s : State) (m a c e : Byte) (u k n : Nat) (cmd : Option Nat) : (s.raiseHub m a c e u k n cmd).safe = s.safe := rfl
@[simp] theorem State.raiseHub_stops (s : State) (m a c e : Byte) (u k n : Nat) (cmd : Option Nat) : (s.raiseHub m a c e u k n cmd).stops = s.stops := rfl
@[simp] theorem State.raiseHub_gov (s : State) (m a c e : Byte) (u k n : Nat) (cmd : Option Nat) : (s.raiseHub m a c e u k n cmd).gov = s.gov := rfl
@[simp] theorem State.raiseHub_pins (s : State) (m a c e : Byte) (u k n : Nat) (cmd : Option Nat) : (s.raiseHub m a c e u k n cmd).pins = s.pins := rfl

/-! What the hub's own writes and records change: HBM, the Logbook, and records raised by them. -/

theorem State.fence_shape (s : State) (p : ChanId) (ue : Bool) : ∃ h r, s.fence p ue = { s with hbm := h, hubRecs := r } := by
  unfold State.fence
  split
  · exact ⟨s.hbm, s.hubRecs, rfl⟩
  · exact ⟨_, _, rfl⟩

theorem State.countCe_shape (s : State) (p : ChanId) : ∃ h r, s.countCe p = { s with hbm := h, hubRecs := r } := by
  simp only [State.countCe]
  split
  · obtain ⟨h, r, e⟩ := State.fence_shape { s with hbm := s.hbm.updChan p fun _ => _ } p false
    exact ⟨h, r, e⟩
  · exact ⟨_, _, rfl⟩

theorem State.countUe_shape (s : State) (a : Nat) : ∃ h r, s.countUe a = { s with hbm := h, hubRecs := r } := by
  simp only [State.countUe]
  split
  · exact ⟨s.hbm, s.hubRecs, rfl⟩
  · rename_i p _ _
    split
    · obtain ⟨h, r, e⟩ := State.fence_shape { s with hbm := s.hbm.updChan p fun c => _ } p true
      exact ⟨h, r, e⟩
    · exact ⟨_, _, rfl⟩

theorem State.hbmCorrect_shape (s : State) (met : Nat → Bool) : ∃ h r, s.hbmCorrect met = { s with hbm := h, hubRecs := r } := by
  simp only [State.hbmCorrect]
  split
  · exact ⟨s.hbm, s.hubRecs, rfl⟩
  · have key : ∀ (l : List Nat) (x : State), (∃ h r, x = { s with hbm := h, hubRecs := r }) →
        ∃ h r, l.foldl (fun s u => match s.hbm.chanOf (u * hbmUnit) with | some (p, _) => s.countCe p | none => s) x
          = { s with hbm := h, hubRecs := r } := by
      intro l
      induction l with
      | nil => exact fun x hx => hx
      | cons u l ih =>
        rintro x ⟨h, r, rfl⟩
        refine ih _ ?_
        beta_reduce
        split
        · rename_i p _ _
          obtain ⟨h', r', e⟩ := State.countCe_shape { s with hbm := h, hubRecs := r } p
          exact ⟨h', r', e⟩
        · exact ⟨h, r, rfl⟩
    exact key _ _ ⟨_, _, rfl⟩

/-- R256, R440: a write of the hub into HBM changes HBM, and raises records, and nothing else. -/
theorem State.hubHbm_shape (s : State) (o : Nat) (bs : List Byte) : ∃ h r, s.hubHbm o bs = { s with hbm := h, hubRecs := r } := by
  obtain ⟨h, r, e⟩ := State.hbmCorrect_shape s fun u => unitMet hbmUnit o bs.length u && unitKept hbmUnit o bs.length u
  simp only [State.hubHbm, e]
  split <;> exact ⟨_, _, rfl⟩

theorem State.ringRecord_shape (s : State) (dw : List Word64) (f g : Obs → Obs) :
    ∃ h o r, s.ringRecord dw f g = { s with hbm := h, obs := o, hubRecs := r } := by
  simp only [State.ringRecord]
  split
  · exact ⟨s.hbm, _, s.hubRecs, rfl⟩
  · obtain ⟨h, r, e⟩ := State.hubHbm_shape s (s.obs.area + 32 * (s.obs.widx.toNat % (s.obs.logMib.toNat * 32768))) (dwBytes dw)
    rw [e]
    exact ⟨h, _, r, rfl⟩

/-- R464 to R466: the writing of a record changes HBM, the Logbook's places and the records raised, and nothing else. -/
theorem State.writeOne_shape (s : State) : ∃ h o r, s.writeOne = { s with hbm := h, obs := o, hubRecs := r } := by
  have key : ∀ x : State, (∃ o, x = { s with obs := o }) → ∃ h o r, x.writeRecord = { s with hbm := h, obs := o, hubRecs := r } := by
    rintro x ⟨o, rfl⟩
    have rr := State.ringRecord_shape { s with obs := o }
    simp only [State.writeRecord]
    repeat' split
    all_goals first
      | (obtain ⟨h, o', r, e⟩ := rr _ _ _; exact ⟨h, o', r, e⟩)
      | exact ⟨s.hbm, _, s.hubRecs, rfl⟩
  unfold State.writeOne
  split
  · exact ⟨s.hbm, s.obs, s.hubRecs, rfl⟩
  · exact key _ ⟨_, rfl⟩

theorem State.prioRoom_shape (s : State) (n : Nat) : ∃ h o r, s.prioRoom n = { s with hbm := h, obs := o, hubRecs := r } := by
  induction n generalizing s with
  | zero =>
    unfold State.prioRoom
    split
    · exact ⟨s.hbm, s.obs, s.hubRecs, rfl⟩
    · exact ⟨s.hbm, _, s.hubRecs, rfl⟩
  | succ n ih =>
    unfold State.prioRoom
    split
    · exact ⟨s.hbm, s.obs, s.hubRecs, rfl⟩
    · obtain ⟨h, o, r, e⟩ := State.writeOne_shape s
      obtain ⟨h', o', r', e'⟩ := ih s.writeOne
      rw [e', e]
      exact ⟨h', o', r', rfl⟩

/-- R465, R468: a record that is emitted changes the Logbook, HBM where the places for priority records are full, and the records raised. -/
theorem State.logAt_shape (s : State) (p : Word64) (t e u q a : Nat) (b c : Word64) :
    ∃ h o r, s.logAt p t e u q a b c = { s with hbm := h, obs := o, hubRecs := r } := by
  simp only [State.logAt]
  split
  · obtain ⟨h, o, r, e⟩ := State.prioRoom_shape { s with obs := s.obs.push _ p } 2
    exact ⟨h, o, r, e⟩
  · exact ⟨s.hbm, _, s.hubRecs, rfl⟩

/-- R465, R468: an ordinary record changes the Logbook only. -/
theorem State.logAt_ordinary (s : State) (p : Word64) (t e u q a : Nat) (b c : Word64)
    (h : t ≠ 0x0B ∧ t ≠ 0x0C ∧ t ≠ 0x0D ∧ t ≠ 0x0E) :
    ∃ r : LogRec, r.prio = false ∧ s.logAt p t e u q a b c = { s with obs := s.obs.push r p } := by
  obtain ⟨h1, h2, h3, h4⟩ := h
  have hp : (t == 0x0B || t == 0x0C || t == 0x0D || t == 0x0E) = false := by simp [h1, h2, h3, h4]
  refine ⟨⟨[logDw0 t e u p, w64 (q + a % 2 ^ 32 * 2 ^ 32), b, c], false⟩, rfl, ?_⟩
  simp [State.logAt, hp]

@[simp] theorem State.logAt_pending (s : State) (p : Word64) (t e u q a : Nat) (b c : Word64) : (s.logAt p t e u q a b c).pending = s.pending := by
  obtain ⟨h, o, r, x⟩ := State.logAt_shape s p t e u q a b c; rw [x]
@[simp] theorem State.logAt_fresh (s : State) (p : Word64) (t e u q a : Nat) (b c : Word64) : (s.logAt p t e u q a b c).fresh = s.fresh := by
  obtain ⟨h, o, r, x⟩ := State.logAt_shape s p t e u q a b c; rw [x]
@[simp] theorem State.logAt_clk (s : State) (p : Word64) (t e u q a : Nat) (b c : Word64) : (s.logAt p t e u q a b c).clk = s.clk := by
  obtain ⟨h, o, r, x⟩ := State.logAt_shape s p t e u q a b c; rw [x]
@[simp] theorem State.logAt_cells (s : State) (p : Word64) (t e u q a : Nat) (b c : Word64) : (s.logAt p t e u q a b c).cells = s.cells := by
  obtain ⟨h, o, r, x⟩ := State.logAt_shape s p t e u q a b c; rw [x]
@[simp] theorem State.logAt_time (s : State) (p : Word64) (t e u q a : Nat) (b c : Word64) : (s.logAt p t e u q a b c).time = s.time := by
  obtain ⟨h, o, r, x⟩ := State.logAt_shape s p t e u q a b c; rw [x]
@[simp] theorem State.logAt_opt (s : State) (p : Word64) (t e u q a : Nat) (b c : Word64) : (s.logAt p t e u q a b c).opt = s.opt := by
  obtain ⟨h, o, r, x⟩ := State.logAt_shape s p t e u q a b c; rw [x]
@[simp] theorem State.logAt_orbit (s : State) (p : Word64) (t e u q a : Nat) (b c : Word64) : (s.logAt p t e u q a b c).orbit = s.orbit := by
  obtain ⟨h, o, r, x⟩ := State.logAt_shape s p t e u q a b c; rw [x]
@[simp] theorem State.logAt_xbar (s : State) (p : Word64) (t e u q a : Nat) (b c : Word64) : (s.logAt p t e u q a b c).xbar = s.xbar := by
  obtain ⟨h, o, r, x⟩ := State.logAt_shape s p t e u q a b c; rw [x]
@[simp] theorem State.logAt_ports (s : State) (p : Word64) (t e u q a : Nat) (b c : Word64) : (s.logAt p t e u q a b c).ports = s.ports := by
  obtain ⟨h, o, r, x⟩ := State.logAt_shape s p t e u q a b c; rw [x]
@[simp] theorem State.logAt_queues (s : State) (p : Word64) (t e u q a : Nat) (b c : Word64) : (s.logAt p t e u q a b c).queues = s.queues := by
  obtain ⟨h, o, r, x⟩ := State.logAt_shape s p t e u q a b c; rw [x]
@[simp] theorem State.logAt_groups (s : State) (p : Word64) (t e u q a : Nat) (b c : Word64) : (s.logAt p t e u q a b c).groups = s.groups := by
  obtain ⟨h, o, r, x⟩ := State.logAt_shape s p t e u q a b c; rw [x]
@[simp] theorem State.logAt_disp (s : State) (p : Word64) (t e u q a : Nat) (b c : Word64) : (s.logAt p t e u q a b c).disp = s.disp := by
  obtain ⟨h, o, r, x⟩ := State.logAt_shape s p t e u q a b c; rw [x]
@[simp] theorem State.logAt_boot (s : State) (p : Word64) (t e u q a : Nat) (b c : Word64) : (s.logAt p t e u q a b c).boot = s.boot := by
  obtain ⟨h, o, r, x⟩ := State.logAt_shape s p t e u q a b c; rw [x]
@[simp] theorem State.logAt_flash (s : State) (p : Word64) (t e u q a : Nat) (b c : Word64) : (s.logAt p t e u q a b c).flash = s.flash := by
  obtain ⟨h, o, r, x⟩ := State.logAt_shape s p t e u q a b c; rw [x]
@[simp] theorem State.logAt_fuses (s : State) (p : Word64) (t e u q a : Nat) (b c : Word64) : (s.logAt p t e u q a b c).fuses = s.fuses := by
  obtain ⟨h, o, r, x⟩ := State.logAt_shape s p t e u q a b c; rw [x]
@[simp] theorem State.logAt_safe (s : State) (p : Word64) (t e u q a : Nat) (b c : Word64) : (s.logAt p t e u q a b c).safe = s.safe := by
  obtain ⟨h, o, r, x⟩ := State.logAt_shape s p t e u q a b c; rw [x]
@[simp] theorem State.logAt_stops (s : State) (p : Word64) (t e u q a : Nat) (b c : Word64) : (s.logAt p t e u q a b c).stops = s.stops := by
  obtain ⟨h, o, r, x⟩ := State.logAt_shape s p t e u q a b c; rw [x]
@[simp] theorem State.logAt_gov (s : State) (p : Word64) (t e u q a : Nat) (b c : Word64) : (s.logAt p t e u q a b c).gov = s.gov := by
  obtain ⟨h, o, r, x⟩ := State.logAt_shape s p t e u q a b c; rw [x]
@[simp] theorem State.logAt_pins (s : State) (p : Word64) (t e u q a : Nat) (b c : Word64) : (s.logAt p t e u q a b c).pins = s.pins := by
  obtain ⟨h, o, r, x⟩ := State.logAt_shape s p t e u q a b c; rw [x]
@[simp] theorem State.log_pending (s : State) (t e u q a : Nat) (b c : Word64) : (s.log t e u q a b c).pending = s.pending :=
  State.logAt_pending s _ t e u q a b c
@[simp] theorem State.log_fresh (s : State) (t e u q a : Nat) (b c : Word64) : (s.log t e u q a b c).fresh = s.fresh :=
  State.logAt_fresh s _ t e u q a b c
@[simp] theorem State.log_clk (s : State) (t e u q a : Nat) (b c : Word64) : (s.log t e u q a b c).clk = s.clk :=
  State.logAt_clk s _ t e u q a b c
@[simp] theorem State.log_cells (s : State) (t e u q a : Nat) (b c : Word64) : (s.log t e u q a b c).cells = s.cells :=
  State.logAt_cells s _ t e u q a b c
@[simp] theorem State.log_time (s : State) (t e u q a : Nat) (b c : Word64) : (s.log t e u q a b c).time = s.time :=
  State.logAt_time s _ t e u q a b c
@[simp] theorem State.log_opt (s : State) (t e u q a : Nat) (b c : Word64) : (s.log t e u q a b c).opt = s.opt :=
  State.logAt_opt s _ t e u q a b c
@[simp] theorem State.log_orbit (s : State) (t e u q a : Nat) (b c : Word64) : (s.log t e u q a b c).orbit = s.orbit :=
  State.logAt_orbit s _ t e u q a b c
@[simp] theorem State.log_xbar (s : State) (t e u q a : Nat) (b c : Word64) : (s.log t e u q a b c).xbar = s.xbar :=
  State.logAt_xbar s _ t e u q a b c
@[simp] theorem State.log_ports (s : State) (t e u q a : Nat) (b c : Word64) : (s.log t e u q a b c).ports = s.ports :=
  State.logAt_ports s _ t e u q a b c
@[simp] theorem State.log_queues (s : State) (t e u q a : Nat) (b c : Word64) : (s.log t e u q a b c).queues = s.queues :=
  State.logAt_queues s _ t e u q a b c
@[simp] theorem State.log_groups (s : State) (t e u q a : Nat) (b c : Word64) : (s.log t e u q a b c).groups = s.groups :=
  State.logAt_groups s _ t e u q a b c
@[simp] theorem State.log_disp (s : State) (t e u q a : Nat) (b c : Word64) : (s.log t e u q a b c).disp = s.disp :=
  State.logAt_disp s _ t e u q a b c
@[simp] theorem State.log_boot (s : State) (t e u q a : Nat) (b c : Word64) : (s.log t e u q a b c).boot = s.boot :=
  State.logAt_boot s _ t e u q a b c
@[simp] theorem State.log_flash (s : State) (t e u q a : Nat) (b c : Word64) : (s.log t e u q a b c).flash = s.flash :=
  State.logAt_flash s _ t e u q a b c
@[simp] theorem State.log_fuses (s : State) (t e u q a : Nat) (b c : Word64) : (s.log t e u q a b c).fuses = s.fuses :=
  State.logAt_fuses s _ t e u q a b c
@[simp] theorem State.log_safe (s : State) (t e u q a : Nat) (b c : Word64) : (s.log t e u q a b c).safe = s.safe :=
  State.logAt_safe s _ t e u q a b c
@[simp] theorem State.log_stops (s : State) (t e u q a : Nat) (b c : Word64) : (s.log t e u q a b c).stops = s.stops :=
  State.logAt_stops s _ t e u q a b c
@[simp] theorem State.log_gov (s : State) (t e u q a : Nat) (b c : Word64) : (s.log t e u q a b c).gov = s.gov :=
  State.logAt_gov s _ t e u q a b c
@[simp] theorem State.log_pins (s : State) (t e u q a : Nat) (b c : Word64) : (s.log t e u q a b c).pins = s.pins :=
  State.logAt_pins s _ t e u q a b c

@[simp] theorem State.hubTick_pending (s : State) (k : Nat) : (s.hubTick k).pending = s.pending := rfl
@[simp] theorem State.hubTick_fresh (s : State) (k : Nat) : (s.hubTick k).fresh = s.fresh := rfl
@[simp] theorem State.hubTick_cells (s : State) (k : Nat) : (s.hubTick k).cells = s.cells := rfl
@[simp] theorem State.hubTick_hbm (s : State) (k : Nat) : (s.hubTick k).hbm = s.hbm := rfl
@[simp] theorem State.hubTick_opt (s : State) (k : Nat) : (s.hubTick k).opt = s.opt := rfl
@[simp] theorem State.hubTick_orbit (s : State) (k : Nat) : (s.hubTick k).orbit = s.orbit := rfl
@[simp] theorem State.hubTick_obs (s : State) (k : Nat) : (s.hubTick k).obs = s.obs := rfl
@[simp] theorem State.hubTick_hubRecs (s : State) (k : Nat) : (s.hubTick k).hubRecs = s.hubRecs := rfl
@[simp] theorem State.hubTick_ports (s : State) (k : Nat) : (s.hubTick k).ports = s.ports := rfl
@[simp] theorem State.hubTick_queues (s : State) (k : Nat) : (s.hubTick k).queues = s.queues := rfl
@[simp] theorem State.hubTick_groups (s : State) (k : Nat) : (s.hubTick k).groups = s.groups := rfl
@[simp] theorem State.hubTick_disp (s : State) (k : Nat) : (s.hubTick k).disp = s.disp := rfl
@[simp] theorem State.hubTick_boot (s : State) (k : Nat) : (s.hubTick k).boot = s.boot := rfl
@[simp] theorem State.hubTick_flash (s : State) (k : Nat) : (s.hubTick k).flash = s.flash := rfl
@[simp] theorem State.hubTick_fuses (s : State) (k : Nat) : (s.hubTick k).fuses = s.fuses := rfl
@[simp] theorem State.hubTick_safe (s : State) (k : Nat) : (s.hubTick k).safe = s.safe := rfl
@[simp] theorem State.hubTick_stops (s : State) (k : Nat) : (s.hubTick k).stops = s.stops := rfl
@[simp] theorem State.hubTick_gov (s : State) (k : Nat) : (s.hubTick k).gov = s.gov := rfl
@[simp] theorem State.hubTick_pins (s : State) (k : Nat) : (s.hubTick k).pins = s.pins := rfl

/-! Fields of a cell. -/

@[simp] theorem Cell.engine_id (c : Cell) (e b : Nat) (w : Byte) : (c.engine e b w).id = c.id := rfl
@[simp] theorem Cell.engine_pil (c : Cell) (e b : Nat) (w : Byte) : (c.engine e b w).pil = c.pil := rfl
@[simp] theorem Cell.engine_exc (c : Cell) (e b : Nat) (w : Byte) : (c.engine e b w).exc = c.exc := rfl
@[simp] theorem Cell.engine_fp (c : Cell) (e b : Nat) (w : Byte) : (c.engine e b w).fp = c.fp := rfl
@[simp] theorem Cell.engine_uc (c : Cell) (e b : Nat) (w : Byte) : (c.engine e b w).uc = c.uc := rfl
@[simp] theorem Cell.engine_vec (c : Cell) (e b : Nat) (w : Byte) : (c.engine e b w).vec = c.vec := rfl
@[simp] theorem Cell.engine_arr (c : Cell) (e b : Nat) (w : Byte) : (c.engine e b w).arr = c.arr := rfl
@[simp] theorem Cell.engine_mov (c : Cell) (e b : Nat) (w : Byte) : (c.engine e b w).mov = c.mov := rfl
@[simp] theorem Cell.engine_mbox (c : Cell) (e b : Nat) (w : Byte) : (c.engine e b w).mbox = c.mbox := rfl
@[simp] theorem Cell.engine_rings (c : Cell) (e b : Nat) (w : Byte) : (c.engine e b w).rings = c.rings := rfl
@[simp] theorem Cell.engine_run (c : Cell) (e b : Nat) (w : Byte) : (c.engine e b w).run = c.run := rfl
@[simp] theorem Cell.engine_ls (c : Cell) (e b : Nat) (w : Byte) : (c.engine e b w).ls = c.ls := rfl
@[simp] theorem Cell.engine_win (c : Cell) (e b : Nat) (w : Byte) : (c.engine e b w).win = c.win := rfl
@[simp] theorem Cell.engine_slice (c : Cell) (e b : Nat) (w : Byte) : (c.engine e b w).slice = c.slice := rfl
@[simp] theorem Cell.engine_stores (c : Cell) (e b : Nat) (w : Byte) : (c.engine e b w).stores = c.stores := rfl
@[simp] theorem Cell.engine_regs (c : Cell) (e b : Nat) (w : Byte) : (c.engine e b w).regs = c.regs := rfl
@[simp] theorem Cell.engine_out (c : Cell) (e b : Nat) (w : Byte) : (c.engine e b w).out = c.out := rfl
@[simp] theorem Cell.engine_router (c : Cell) (e b : Nat) (w : Byte) : (c.engine e b w).router = c.router := rfl

@[simp] theorem Cell.span_id (c : Cell) (e a b : Nat) (w : Byte) : (c.span e a b w).id = c.id := by
  unfold Cell.span; split <;> rfl
@[simp] theorem Cell.span_pil (c : Cell) (e a b : Nat) (w : Byte) : (c.span e a b w).pil = c.pil := by
  unfold Cell.span; split <;> rfl
@[simp] theorem Cell.span_exc (c : Cell) (e a b : Nat) (w : Byte) : (c.span e a b w).exc = c.exc := by
  unfold Cell.span; split <;> rfl
@[simp] theorem Cell.span_fp (c : Cell) (e a b : Nat) (w : Byte) : (c.span e a b w).fp = c.fp := by
  unfold Cell.span; split <;> rfl
@[simp] theorem Cell.span_uc (c : Cell) (e a b : Nat) (w : Byte) : (c.span e a b w).uc = c.uc := by
  unfold Cell.span; split <;> rfl
@[simp] theorem Cell.span_vec (c : Cell) (e a b : Nat) (w : Byte) : (c.span e a b w).vec = c.vec := by
  unfold Cell.span; split <;> rfl
@[simp] theorem Cell.span_arr (c : Cell) (e a b : Nat) (w : Byte) : (c.span e a b w).arr = c.arr := by
  unfold Cell.span; split <;> rfl
@[simp] theorem Cell.span_mov (c : Cell) (e a b : Nat) (w : Byte) : (c.span e a b w).mov = c.mov := by
  unfold Cell.span; split <;> rfl
@[simp] theorem Cell.span_mbox (c : Cell) (e a b : Nat) (w : Byte) : (c.span e a b w).mbox = c.mbox := by
  unfold Cell.span; split <;> rfl
@[simp] theorem Cell.span_rings (c : Cell) (e a b : Nat) (w : Byte) : (c.span e a b w).rings = c.rings := by
  unfold Cell.span; split <;> rfl
@[simp] theorem Cell.span_run (c : Cell) (e a b : Nat) (w : Byte) : (c.span e a b w).run = c.run := by
  unfold Cell.span; split <;> rfl
@[simp] theorem Cell.span_ls (c : Cell) (e a b : Nat) (w : Byte) : (c.span e a b w).ls = c.ls := by
  unfold Cell.span; split <;> rfl
@[simp] theorem Cell.span_win (c : Cell) (e a b : Nat) (w : Byte) : (c.span e a b w).win = c.win := by
  unfold Cell.span; split <;> rfl
@[simp] theorem Cell.span_slice (c : Cell) (e a b : Nat) (w : Byte) : (c.span e a b w).slice = c.slice := by
  unfold Cell.span; split <;> rfl
@[simp] theorem Cell.span_stores (c : Cell) (e a b : Nat) (w : Byte) : (c.span e a b w).stores = c.stores := by
  unfold Cell.span; split <;> rfl
@[simp] theorem Cell.span_regs (c : Cell) (e a b : Nat) (w : Byte) : (c.span e a b w).regs = c.regs := by
  unfold Cell.span; split <;> rfl
@[simp] theorem Cell.span_out (c : Cell) (e a b : Nat) (w : Byte) : (c.span e a b w).out = c.out := by
  unfold Cell.span; split <;> rfl
@[simp] theorem Cell.span_router (c : Cell) (e a b : Nat) (w : Byte) : (c.span e a b w).router = c.router := by
  unfold Cell.span; split <;> rfl

@[simp] theorem Cell.retire_id (c : Cell) (now d : Nat) (pc : Option Word64) (w : Byte) : (c.retire now d pc w).id = c.id := by
  simp [Cell.retire]
@[simp] theorem Cell.retire_exc (c : Cell) (now d : Nat) (pc : Option Word64) (w : Byte) : (c.retire now d pc w).exc = c.exc := by
  simp [Cell.retire]
@[simp] theorem Cell.retire_fp (c : Cell) (now d : Nat) (pc : Option Word64) (w : Byte) : (c.retire now d pc w).fp = c.fp := by
  simp [Cell.retire]
@[simp] theorem Cell.retire_uc (c : Cell) (now d : Nat) (pc : Option Word64) (w : Byte) : (c.retire now d pc w).uc = c.uc := by
  simp [Cell.retire]
@[simp] theorem Cell.retire_vec (c : Cell) (now d : Nat) (pc : Option Word64) (w : Byte) : (c.retire now d pc w).vec = c.vec := by
  simp [Cell.retire]
@[simp] theorem Cell.retire_arr (c : Cell) (now d : Nat) (pc : Option Word64) (w : Byte) : (c.retire now d pc w).arr = c.arr := by
  simp [Cell.retire]
@[simp] theorem Cell.retire_mov (c : Cell) (now d : Nat) (pc : Option Word64) (w : Byte) : (c.retire now d pc w).mov = c.mov := by
  simp [Cell.retire]
@[simp] theorem Cell.retire_mbox (c : Cell) (now d : Nat) (pc : Option Word64) (w : Byte) : (c.retire now d pc w).mbox = c.mbox := by
  simp [Cell.retire]
@[simp] theorem Cell.retire_rings (c : Cell) (now d : Nat) (pc : Option Word64) (w : Byte) : (c.retire now d pc w).rings = c.rings := by
  simp [Cell.retire]
@[simp] theorem Cell.retire_run (c : Cell) (now d : Nat) (pc : Option Word64) (w : Byte) : (c.retire now d pc w).run = c.run := by
  simp [Cell.retire]
@[simp] theorem Cell.retire_ls (c : Cell) (now d : Nat) (pc : Option Word64) (w : Byte) : (c.retire now d pc w).ls = c.ls := by
  simp [Cell.retire]
@[simp] theorem Cell.retire_win (c : Cell) (now d : Nat) (pc : Option Word64) (w : Byte) : (c.retire now d pc w).win = c.win := by
  simp [Cell.retire]
@[simp] theorem Cell.retire_slice (c : Cell) (now d : Nat) (pc : Option Word64) (w : Byte) : (c.retire now d pc w).slice = c.slice := by
  simp [Cell.retire]
@[simp] theorem Cell.retire_stores (c : Cell) (now d : Nat) (pc : Option Word64) (w : Byte) : (c.retire now d pc w).stores = c.stores := by
  simp [Cell.retire]
@[simp] theorem Cell.retire_regs (c : Cell) (now d : Nat) (pc : Option Word64) (w : Byte) : (c.retire now d pc w).regs = c.regs := by
  simp [Cell.retire]
@[simp] theorem Cell.retire_out (c : Cell) (now d : Nat) (pc : Option Word64) (w : Byte) : (c.retire now d pc w).out = c.out := by
  simp [Cell.retire]
@[simp] theorem Cell.retire_router (c : Cell) (now d : Nat) (pc : Option Word64) (w : Byte) : (c.retire now d pc w).router = c.router := by
  simp [Cell.retire]

@[simp] theorem Cell.queueStore_id (c : Cell) (p : PendStore) : (c.queueStore p).id = c.id := rfl
@[simp] theorem Cell.queueStore_pil (c : Cell) (p : PendStore) : (c.queueStore p).pil = c.pil := rfl
@[simp] theorem Cell.queueStore_exc (c : Cell) (p : PendStore) : (c.queueStore p).exc = c.exc := rfl
@[simp] theorem Cell.queueStore_fp (c : Cell) (p : PendStore) : (c.queueStore p).fp = c.fp := rfl
@[simp] theorem Cell.queueStore_uc (c : Cell) (p : PendStore) : (c.queueStore p).uc = c.uc := rfl
@[simp] theorem Cell.queueStore_vec (c : Cell) (p : PendStore) : (c.queueStore p).vec = c.vec := rfl
@[simp] theorem Cell.queueStore_arr (c : Cell) (p : PendStore) : (c.queueStore p).arr = c.arr := rfl
@[simp] theorem Cell.queueStore_mov (c : Cell) (p : PendStore) : (c.queueStore p).mov = c.mov := rfl
@[simp] theorem Cell.queueStore_mbox (c : Cell) (p : PendStore) : (c.queueStore p).mbox = c.mbox := rfl
@[simp] theorem Cell.queueStore_rings (c : Cell) (p : PendStore) : (c.queueStore p).rings = c.rings := rfl
@[simp] theorem Cell.queueStore_run (c : Cell) (p : PendStore) : (c.queueStore p).run = c.run := rfl
@[simp] theorem Cell.queueStore_trc (c : Cell) (p : PendStore) : (c.queueStore p).trc = c.trc := rfl
@[simp] theorem Cell.queueStore_ls (c : Cell) (p : PendStore) : (c.queueStore p).ls = c.ls := rfl
@[simp] theorem Cell.queueStore_win (c : Cell) (p : PendStore) : (c.queueStore p).win = c.win := rfl
@[simp] theorem Cell.queueStore_slice (c : Cell) (p : PendStore) : (c.queueStore p).slice = c.slice := rfl
@[simp] theorem Cell.queueStore_regs (c : Cell) (p : PendStore) : (c.queueStore p).regs = c.regs := rfl
@[simp] theorem Cell.queueStore_out (c : Cell) (p : PendStore) : (c.queueStore p).out = c.out := rfl
@[simp] theorem Cell.queueStore_router (c : Cell) (p : PendStore) : (c.queueStore p).router = c.router := rfl

/-! Fields of the pilot. -/

@[simp] theorem Cell.retire_pil_s (c : Cell) (now d : Nat) (pc : Option Word64) (w : Byte) :
    (c.retire now d pc w).pil.s = c.pil.s := by simp [Cell.retire]
@[simp] theorem Cell.retire_pil_w (c : Cell) (now d : Nat) (pc : Option Word64) (w : Byte) :
    (c.retire now d pc w).pil.w = c.pil.w := by simp [Cell.retire]
@[simp] theorem Cell.retire_pil_mode (c : Cell) (now d : Nat) (pc : Option Word64) (w : Byte) :
    (c.retire now d pc w).pil.mode = c.pil.mode := by simp [Cell.retire]
@[simp] theorem Cell.retire_pil_wbs (c : Cell) (now d : Nat) (pc : Option Word64) (w : Byte) :
    (c.retire now d pc w).pil.wbs = c.pil.wbs := by simp [Cell.retire]
@[simp] theorem Cell.retire_pil_intDiv (c : Cell) (now d : Nat) (pc : Option Word64) (w : Byte) :
    (c.retire now d pc w).pil.intDiv = c.pil.intDiv := by simp [Cell.retire]
@[simp] theorem Cell.retire_pil_fpDiv (c : Cell) (now d : Nat) (pc : Option Word64) (w : Byte) :
    (c.retire now d pc w).pil.fpDiv = c.pil.fpDiv := by simp [Cell.retire]
@[simp] theorem Cell.retire_pil_lsPort (c : Cell) (now d : Nat) (pc : Option Word64) (w : Byte) :
    (c.retire now d pc w).pil.lsPort = c.pil.lsPort := by simp [Cell.retire]
@[simp] theorem Cell.retire_pil_winPort (c : Cell) (now d : Nat) (pc : Option Word64) (w : Byte) :
    (c.retire now d pc w).pil.winPort = c.pil.winPort := by simp [Cell.retire]
@[simp] theorem Cell.retire_pil_sliPort (c : Cell) (now d : Nat) (pc : Option Word64) (w : Byte) :
    (c.retire now d pc w).pil.sliPort = c.pil.sliPort := by simp [Cell.retire]
@[simp] theorem Cell.retire_pil_remotes (c : Cell) (now d : Nat) (pc : Option Word64) (w : Byte) :
    (c.retire now d pc w).pil.remotes = c.pil.remotes := by simp [Cell.retire]
@[simp] theorem Cell.retire_pil_nextReq (c : Cell) (now d : Nat) (pc : Option Word64) (w : Byte) :
    (c.retire now d pc w).pil.nextReq = c.pil.nextReq := by simp [Cell.retire]
@[simp] theorem Cell.retire_pil_rep (c : Cell) (now d : Nat) (pc : Option Word64) (w : Byte) :
    (c.retire now d pc w).pil.rep = c.pil.rep := by simp [Cell.retire]
@[simp] theorem Cell.retire_pil_acqr (c : Cell) (now d : Nat) (pc : Option Word64) (w : Byte) :
    (c.retire now d pc w).pil.acqr = c.pil.acqr := by simp [Cell.retire]
@[simp] theorem Cell.retire_pil_hold (c : Cell) (now d : Nat) (pc : Option Word64) (w : Byte) :
    (c.retire now d pc w).pil.hold = c.pil.hold := by simp [Cell.retire]
@[simp] theorem Cell.retire_pil_memFree (c : Cell) (now d : Nat) (pc : Option Word64) (w : Byte) :
    (c.retire now d pc w).pil.memFree = c.pil.memFree := by simp [Cell.retire]

@[simp] theorem Cell.retire_pil_pc (c : Cell) (now d : Nat) (pc : Option Word64) (w : Byte) :
    (c.retire now d pc w).pil.pc = pc.getD (c.pil.pc + 4) := by simp [Cell.retire]
@[simp] theorem Cell.retire_pil_next (c : Cell) (now d : Nat) (pc : Option Word64) (w : Byte) :
    (c.retire now d pc w).pil.next = now + d := by simp [Cell.retire]

@[simp] theorem Pilot.writeS_w (p : Pilot) (r : BitVec 5) (v : Word64) : (p.writeS r v).w = p.w := by
  unfold Pilot.writeS; split <;> rfl
@[simp] theorem Pilot.writeS_pc (p : Pilot) (r : BitVec 5) (v : Word64) : (p.writeS r v).pc = p.pc := by
  unfold Pilot.writeS; split <;> rfl
@[simp] theorem Pilot.writeS_mode (p : Pilot) (r : BitVec 5) (v : Word64) : (p.writeS r v).mode = p.mode := by
  unfold Pilot.writeS; split <;> rfl
@[simp] theorem Pilot.writeS_next (p : Pilot) (r : BitVec 5) (v : Word64) : (p.writeS r v).next = p.next := by
  unfold Pilot.writeS; split <;> rfl
@[simp] theorem Pilot.writeS_wbs (p : Pilot) (r : BitVec 5) (v : Word64) : (p.writeS r v).wbs = p.wbs := by
  unfold Pilot.writeS; split <;> rfl
@[simp] theorem Pilot.writeS_intDiv (p : Pilot) (r : BitVec 5) (v : Word64) : (p.writeS r v).intDiv = p.intDiv := by
  unfold Pilot.writeS; split <;> rfl
@[simp] theorem Pilot.writeS_fpDiv (p : Pilot) (r : BitVec 5) (v : Word64) : (p.writeS r v).fpDiv = p.fpDiv := by
  unfold Pilot.writeS; split <;> rfl
@[simp] theorem Pilot.writeS_lsPort (p : Pilot) (r : BitVec 5) (v : Word64) : (p.writeS r v).lsPort = p.lsPort := by
  unfold Pilot.writeS; split <;> rfl
@[simp] theorem Pilot.writeS_winPort (p : Pilot) (r : BitVec 5) (v : Word64) : (p.writeS r v).winPort = p.winPort := by
  unfold Pilot.writeS; split <;> rfl
@[simp] theorem Pilot.writeS_sliPort (p : Pilot) (r : BitVec 5) (v : Word64) : (p.writeS r v).sliPort = p.sliPort := by
  unfold Pilot.writeS; split <;> rfl
@[simp] theorem Pilot.writeS_remotes (p : Pilot) (r : BitVec 5) (v : Word64) : (p.writeS r v).remotes = p.remotes := by
  unfold Pilot.writeS; split <;> rfl
@[simp] theorem Pilot.writeS_nextReq (p : Pilot) (r : BitVec 5) (v : Word64) : (p.writeS r v).nextReq = p.nextReq := by
  unfold Pilot.writeS; split <;> rfl
@[simp] theorem Pilot.writeS_rep (p : Pilot) (r : BitVec 5) (v : Word64) : (p.writeS r v).rep = p.rep := by
  unfold Pilot.writeS; split <;> rfl
@[simp] theorem Pilot.writeS_acqr (p : Pilot) (r : BitVec 5) (v : Word64) : (p.writeS r v).acqr = p.acqr := by
  unfold Pilot.writeS; split <;> rfl
@[simp] theorem Pilot.writeS_hold (p : Pilot) (r : BitVec 5) (v : Word64) : (p.writeS r v).hold = p.hold := by
  unfold Pilot.writeS; split <;> rfl
@[simp] theorem Pilot.writeS_memFree (p : Pilot) (r : BitVec 5) (v : Word64) : (p.writeS r v).memFree = p.memFree := by
  unfold Pilot.writeS; split <;> rfl
@[simp] theorem Pilot.writeS_nextWhy (p : Pilot) (r : BitVec 5) (v : Word64) : (p.writeS r v).nextWhy = p.nextWhy := by
  unfold Pilot.writeS; split <;> rfl
@[simp] theorem Pilot.writeW_s (p : Pilot) (r : BitVec 5) (v : BitVec 128) : (p.writeW r v).s = p.s := rfl
@[simp] theorem Pilot.writeW_pc (p : Pilot) (r : BitVec 5) (v : BitVec 128) : (p.writeW r v).pc = p.pc := rfl
@[simp] theorem Pilot.writeW_mode (p : Pilot) (r : BitVec 5) (v : BitVec 128) : (p.writeW r v).mode = p.mode := rfl
@[simp] theorem Pilot.writeW_next (p : Pilot) (r : BitVec 5) (v : BitVec 128) : (p.writeW r v).next = p.next := rfl
@[simp] theorem Pilot.writeW_wbs (p : Pilot) (r : BitVec 5) (v : BitVec 128) : (p.writeW r v).wbs = p.wbs := rfl
@[simp] theorem Pilot.writeW_intDiv (p : Pilot) (r : BitVec 5) (v : BitVec 128) : (p.writeW r v).intDiv = p.intDiv := rfl
@[simp] theorem Pilot.writeW_fpDiv (p : Pilot) (r : BitVec 5) (v : BitVec 128) : (p.writeW r v).fpDiv = p.fpDiv := rfl
@[simp] theorem Pilot.writeW_lsPort (p : Pilot) (r : BitVec 5) (v : BitVec 128) : (p.writeW r v).lsPort = p.lsPort := rfl
@[simp] theorem Pilot.writeW_winPort (p : Pilot) (r : BitVec 5) (v : BitVec 128) : (p.writeW r v).winPort = p.winPort := rfl
@[simp] theorem Pilot.writeW_sliPort (p : Pilot) (r : BitVec 5) (v : BitVec 128) : (p.writeW r v).sliPort = p.sliPort := rfl
@[simp] theorem Pilot.writeW_remotes (p : Pilot) (r : BitVec 5) (v : BitVec 128) : (p.writeW r v).remotes = p.remotes := rfl
@[simp] theorem Pilot.writeW_nextReq (p : Pilot) (r : BitVec 5) (v : BitVec 128) : (p.writeW r v).nextReq = p.nextReq := rfl
@[simp] theorem Pilot.writeW_rep (p : Pilot) (r : BitVec 5) (v : BitVec 128) : (p.writeW r v).rep = p.rep := rfl
@[simp] theorem Pilot.writeW_acqr (p : Pilot) (r : BitVec 5) (v : BitVec 128) : (p.writeW r v).acqr = p.acqr := rfl
@[simp] theorem Pilot.writeW_hold (p : Pilot) (r : BitVec 5) (v : BitVec 128) : (p.writeW r v).hold = p.hold := rfl
@[simp] theorem Pilot.writeW_memFree (p : Pilot) (r : BitVec 5) (v : BitVec 128) : (p.writeW r v).memFree = p.memFree := rfl
@[simp] theorem Pilot.writeW_nextWhy (p : Pilot) (r : BitVec 5) (v : BitVec 128) : (p.writeW r v).nextWhy = p.nextWhy := rfl

/-! Registers. -/

/-- R157: s0 reads as 0. -/
@[simp] theorem Pilot.readS_zero (p : Pilot) : p.readS 0 = 0 := rfl

theorem toNat_ne {n : Nat} {a b : BitVec n} (h : a ≠ b) : a.toNat ≠ b.toNat := fun e => h (BitVec.eq_of_toNat_eq e)

/-- R157: an s register other than s0 reads the value written. -/
theorem Pilot.readS_writeS_same (p : Pilot) (r : BitVec 5) (v : Word64) (h : r ≠ 0) : (p.writeS r v).readS r = v := by
  unfold Pilot.readS Pilot.writeS
  rw [if_neg h, if_neg h]
  exact Tbl.get_set_same _ _ _ _

/-- R157: a write leaves every other s register. -/
theorem Pilot.readS_writeS_other (p : Pilot) (r q : BitVec 5) (v : Word64) (h : q ≠ r) : (p.writeS r v).readS q = p.readS q := by
  unfold Pilot.readS Pilot.writeS
  split
  · rfl
  · split
    · rfl
    · exact Tbl.get_set_other _ _ _ _ _ (toNat_ne h)

/-- R157: a write to s0 is discarded. -/
@[simp] theorem Pilot.writeS_zero (p : Pilot) (v : Word64) : p.writeS 0 v = p := rfl

@[simp] theorem Pilot.readW_writeW_same (p : Pilot) (r : BitVec 5) (v : BitVec 128) : (p.writeW r v).readW r = v := by
  simp [Pilot.readW, Pilot.writeW]

theorem Pilot.readW_writeW_other (p : Pilot) (r q : BitVec 5) (v : BitVec 128) (h : q ≠ r) :
    (p.writeW r v).readW q = p.readW q := Tbl.get_set_other _ _ _ _ _ (toNat_ne h)

/-! Cells. -/

/-- An update of a cell is read back. -/
@[simp] theorem State.cell_setCell_same (s : State) (g : CellId) (c : Cell) : (s.setCell g c).cell g = c := by
  simp [State.cell, State.setCell]

/-- It leaves every other cell. -/
theorem State.cell_setCell_other (s : State) (g h : CellId) (c : Cell) (e : h ≠ g) : (s.setCell g c).cell h = s.cell h :=
  Tbl.get_set_other _ _ _ _ _ (toNat_ne e)

@[simp] theorem State.cell_updCell_same (s : State) (g : CellId) (f : Cell → Cell) : (s.updCell g f).cell g = f (s.cell g) := by
  simp [State.updCell]

theorem State.cell_updCell_other (s : State) (g h : CellId) (f : Cell → Cell) (e : h ≠ g) : (s.updCell g f).cell h = s.cell h :=
  State.cell_setCell_other s g h _ e

@[simp] theorem State.setCell_setCell (s : State) (g : CellId) (a b : Cell) : (s.setCell g a).setCell g b = s.setCell g b := by
  simp [State.setCell]

/-- Two updates of one cell are one. -/
@[simp] theorem State.updCell_updCell (s : State) (g : CellId) (f h : Cell → Cell) :
    (s.updCell g f).updCell g h = s.updCell g fun c => h (f c) := by
  simp [State.updCell]

/-- Entries of other cells are left when one cell changes. -/
theorem State.cell_cells (s t : State) (g : CellId) (h : t.cells = s.cells) (hc : t.clk.cc = s.clk.cc) : t.cell g = s.cell g := by
  simp [State.cell, h, hc]

end Sys2Proof.Machine
end

