-- ==== Sys2Proof/Laws/Issue.lean ====
section
/-! SUPPORT. What the shared operation of issue does: with nothing in the way an instruction's body runs in this cc and its end is
applied; what a plain register instruction leaves. -/

namespace Sys2Proof.Machine

theorem State.waitIs_le (s : State) (g : CellId) (t : Nat) (w : List Span) (h : t ≤ s.clk.cc) : s.waitIs g t w = s := by
  simp [State.waitIs, h]

theorem State.waitFor_le (s : State) (g : CellId) (t : Nat) (w : Byte) (h : t ≤ s.clk.cc) : s.waitFor g t w = s :=
  State.waitIs_le s g t _ h

theorem State.waitReady_le (s : State) (g : CellId) (u : Uses) (h : (s.cell g).pil.ready u s.clk.cc ≤ s.clk.cc) :
    s.waitReady g u = s :=
  State.waitIs_le s g _ _ h

/-- With no entry or return under way none comes to its end. -/
theorem State.seqDone_none (s : State) (g : CellId) (n : Nat) (h : (s.cell g).pil.seq = none) : s.seqDone g n = s := by
  cases n <;> simp [State.seqDone, h]

/-- What `State.fetches` says, part by part. -/
theorem State.fetches_parts {s : State} {g : CellId} (h : s.fetches g = true) :
    s.running g = true ∧ s.clk.still = false ∧ (s.cell g).exc.takeable s.clk.cc = none ∧ pcOk (s.cell g).pil.pc = true ∧
      (s.cell g).pil.seq = none ∧ (s.cell g).win.anyBad sramUnit (fetchOff (s.cell g).pil.pc) 16 = false ∧
      s.fetchCorrect g = s := by
  simp only [State.fetches, Bool.and_eq_true, Bool.not_eq_true', Option.isNone_iff_eq_none] at h
  obtain ⟨⟨⟨⟨⟨hr, ht⟩, hp⟩, hq⟩, hb⟩, hc⟩ := h
  refine ⟨hr, ?_, ht, hp, hq, hb, by simp [State.fetchCorrect, hc]⟩
  simp only [State.running, State.live, Bool.and_eq_true, Bool.not_eq_true'] at hr
  simp [Clock.still, hr]

/-- R208: where nothing comes before it, the body of a legal instruction decides. -/
theorem State.issueNow_of_fetches (s : State) (g : CellId) (insn : Word32) (body : State → Res) (h : s.fetches g = true) :
    s.issueNow g insn false body = s.finish g insn (body s) := by
  obtain ⟨-, hs, ht, hp, -, hb, hc⟩ := State.fetches_parts h
  simp [State.issueNow, hs, ht, hp, hb, hc]

/-- R163, R224: where nothing else comes before it, a reserved encoding takes ILLEGAL. -/
theorem State.issueNow_illegal (s : State) (g : CellId) (insn : Word32) (body : State → Res) (h : s.fetches g = true) :
    s.issueNow g insn true body = s.fault g xIllegal false false 0 0 insn := by
  obtain ⟨-, hs, ht, hp, -, hb, hc⟩ := State.fetches_parts h
  simp [State.issueNow, hs, ht, hp, hb, hc]

theorem State.canIssue_fetches {s : State} {g : CellId} {u : Uses} (h : s.canIssue g u = true) : s.fetches g = true := by
  simp only [State.canIssue, Bool.and_eq_true] at h
  exact h.1.1.1

/-- R206, R208: an instruction that nothing holds issues in this cc. -/
theorem State.issueFor_of_canIssue (s : State) (w : Byte) (g : CellId) (u : Uses) (insn : Word32) (port : State → Nat)
    (body : State → Res) (h : s.canIssue g u = true) (hp : port s ≤ s.clk.cc) :
    s.issueFor w g u insn false port body = s.finish g insn (body s) := by
  have hf := State.canIssue_fetches h
  obtain ⟨hrun, -, -, -, hq, -, -⟩ := State.fetches_parts hf
  simp only [State.canIssue, Bool.and_eq_true, Bool.not_eq_true', decide_eq_true_eq] at h
  obtain ⟨⟨⟨-, hr⟩, hh⟩, hd⟩ := h
  simp only [State.issueFor, State.seqDone_none _ _ _ hq, hrun, hr, hh, Bool.not_true, Bool.false_eq_true, if_false,
    State.waitReady_le _ _ _ hd, State.waitFor_le _ _ _ _ hp]
  exact State.issueNow_of_fetches s g insn body hf

/-- R206, R208: the same of one that may wait for a port. -/
theorem State.issue_of_canIssue (s : State) (g : CellId) (u : Uses) (insn : Word32) (port : State → Nat) (body : State → Res)
    (h : s.canIssue g u = true) (hp : port s ≤ s.clk.cc) : s.issue g u insn false port body = s.finish g insn (body s) :=
  State.issueFor_of_canIssue s 2 g u insn port body h hp

/-- R163: a reserved encoding that nothing holds traps in this cc. -/
theorem State.issue_illegal (s : State) (g : CellId) (u : Uses) (insn : Word32) (port : State → Nat) (body : State → Res)
    (h : s.canIssue g u = true) : s.issue g u insn true port body = s.fault g xIllegal false false 0 0 insn := by
  have hf := State.canIssue_fetches h
  obtain ⟨hrun, -, -, -, hq, -, -⟩ := State.fetches_parts hf
  simp only [State.canIssue, Bool.and_eq_true, Bool.not_eq_true', decide_eq_true_eq] at h
  obtain ⟨⟨⟨-, hr⟩, hh⟩, hd⟩ := h
  simp only [State.issue, State.issueFor, State.seqDone_none _ _ _ hq, hrun, hr, hh, Bool.not_true, Bool.false_eq_true,
    if_false, if_true, State.waitReady_le _ _ _ hd]
  exact State.issueNow_illegal s g insn body hf

/-- R191: an instruction whose stall does not hold off an interrupt issues in this cc where nothing holds it and what it waits for is
there. -/
theorem State.issueOpen_of_canIssue (s : State) (g : CellId) (u : Uses) (insn : Word32) (t : State → Nat) (w : Byte)
    (body : State → Res) (h : s.canIssue g u = true) (ht : t s ≤ s.clk.cc) :
    s.issueOpen g u insn false t w body = s.finish g insn (body s) := by
  have hf := State.canIssue_fetches h
  obtain ⟨hrun, -, -, -, hq, -, -⟩ := State.fetches_parts hf
  simp only [State.canIssue, Bool.and_eq_true, Bool.not_eq_true', decide_eq_true_eq] at h
  obtain ⟨⟨⟨-, hr⟩, -⟩, hd⟩ := h
  have hw : ∀ n, s.waitOpen g t w n = s := by intro n; cases n <;> simp [State.waitOpen, ht]
  simp only [State.issueOpen, State.seqDone_none _ _ _ hq, hrun, hr, Bool.not_true, Bool.false_eq_true, if_false,
    State.waitReady_le _ _ _ hd, hw]
  exact State.issueNow_of_fetches s g insn body hf

/-- R68: an instruction that raises no flag leaves no trace of one. -/
@[simp] theorem FpState.raise_zero (f : FpState) (now : Nat) : f.raise (0#5) now = f := by simp [FpState.raise]

theorem Pilot.result_one (p : Pilot) (rd : BitVec 5) (v : Word64) (now : Nat) :
    p.result false rd (v.setWidth 128) 1 now = p.writeS rd v := by
  unfold Pilot.result
  by_cases h : rd = 0
  · subst h; rfl
  · simp only [Bool.not_false, Bool.true_and, decide_eq_true_eq, h, if_false, Nat.le_refl, if_true, Pilot.writeReg,
      Bool.false_eq_true]
    simp

/-- R206, R207: a plain integer instruction of latency 1 writes its register in this cc and the next one follows. -/
theorem State.issueInt_one (s : State) (g : CellId) (src : List (BitVec 5)) (rd : BitVec 5) (insn : Word32) (f : Pilot → Word64)
    (h : s.canIssue g (usesS src rd 1) = true) :
    s.issueInt g src rd 1 insn false f = (s.putS g rd (f (s.cell g).pil)).retired g := by
  rw [State.issueInt, State.issueReg, State.issue_of_canIssue _ _ _ _ _ _ h (Nat.zero_le _)]
  simp only [State.finish, usesS, Pilot.result_one, State.retired, State.putS, State.updPil, State.updCell_updCell,
    State.updCell_clk]
  simp [State.updCell]

/-- R207: one of a longer latency has its result under way. -/
theorem State.issueInt_long (s : State) (g : CellId) (src : List (BitVec 5)) (rd : BitVec 5) (lat : Nat) (insn : Word32)
    (f : Pilot → Word64) (hl : 1 < lat) (h : s.canIssue g (usesS src rd lat) = true) :
    s.issueInt g src rd lat insn false f
      = (s.willPut g false rd ((f (s.cell g).pil).setWidth 128) (s.clk.cc + lat - 1)).retired g := by
  rw [State.issueInt, State.issueReg, State.issue_of_canIssue _ _ _ _ _ _ h (Nat.zero_le _)]
  have hl' : ¬ lat ≤ 1 := by omega
  simp only [State.finish, usesS, State.retired, State.willPut, State.updPil, State.updCell_updCell,
    State.updCell_clk, Pilot.result, hl', if_false]
  simp [State.updCell]

end Sys2Proof.Machine
end

