-- ==== Sys2Proof/Tests/Slice0.lean ====
section
/-! SUPPORT. Tests: words written out from the encodings, the manual's worked examples, ill-formed operands, and for every statement
with hypotheses a state and operands that meet them (`witness_<statement>`). -/

namespace Sys2Proof.Tests

-- One theorem at a time: the many small threads would not fit in the memory that a check may use.
set_option Elab.async false

open Sys2Proof Sys2Proof.Machine

/-! Small states. -/

/-- A user-level pilot at the window's word 0x40. -/
def userPilot : Pilot :=
  { Pilot.reset with mode := .kernel, pc := 0x100100,
                     s := [(1, 7), (2, 0x2000), (3, 2), (4, 0x1000), (5, 0x1800), (6, 0x3F3F), (7, 7), (8, 0x1000000000 + 5 * 0x10000000)],
                     w := [(1, 0x3FF0000000000000), (2, 0x4000000000000000)] }

/-- Cell 5 with that pilot. -/
def userCell : Cell := { Cell.reset with pil := userPilot, exc := { Exc.reset with pl := false, ceil := false, im := false } }

/-- The module with one such cell, at cc 100. -/
def withCell (c : Cell) : State := { State.reset with cells := [(5, c)], clk := { Clock.reset with cc := 100 } }

/-- The state most pilot tests start from. -/
def user : State := withCell userCell

/-- The same at supervisor level. -/
def superCell : Cell := { userCell with exc := { userCell.exc with pl := true, ceil := true } }

/-- What a command leaves: the next state (`exec` answers nothing else). -/
def after (o : Out) : State := match o with | .next t => t | .fault _ => State.reset | .refused _ => State.reset

/-- Operands of the formats. -/
def fR : RFmt := { rd := 9, ra := 1, rb := 3, hi := 0 }
def fI : IFmt := { rd := 9, ra := 0, imm := 0x10 }
def fK : KFmt := { rd := 0, ra := 0, imm := 0 }
def fF : FFmt := { rd := 9, ra := 1, rb := 2, fmt := 0, hi := 0 }
def fW : WFmt := { rd := 9, ra := 1, rb := 2, ty := 0, hi := 0 }
def fS : VsFmt := { d := 9, a := 1, b := 0, mp := 0 }

/-! Encodings (R131, R162): words written out field by field. -/

/-- CREP s13, 0x8888: 001011 01101 010 00 1000100010001000. -/
theorem test_word_crep : encM 2 { rd := 13, hw := 0, imm := 0x8888 } = 0b00101101101010001000100010001000 := by decide
/-- CINS s13, 0x8823 in the lowest halfword: 001011 01101 001 00 1000100000100011. -/
theorem test_word_cins : encM 1 { rd := 13, hw := 0, imm := 0x8823 } = 0b00101101101001001000100000100011 := by decide
/-- NOP is ADDI s0, s0, 0: 000011 00000 00000 0000000000000000. -/
theorem test_word_nop : encI 0b000011 { rd := 0, ra := 0, imm := 0 } = 0b00001100000000000000000000000000 := by decide
/-- LD s10, 0(s11): 010011 01010 01011 0000000000000000. -/
theorem test_word_ld : encI 0b010011 { rd := 10, ra := 11, imm := 0 } = 0b01001101010010110000000000000000 := by decide
/-- RETX: 101111 00000 00000 0000000000 000010. -/
theorem test_word_retx : encK 0b101111 0x02 fK = 0b10111100000000000000000000000010 := by decide
/-- CUSTOM s20, s4, s0, 12, entry 0: 111110 10100 00100 00000 0001100 0000. -/
theorem test_word_custom : encC { rd := 20, ra := 4, rb := 0, imm := 12, entry := 0 } = 0b11111010100001000000000011000000 := by decide
/-- The opcode table gives no bits: no word spells a command, and `withFetchWord` changes nothing. -/
theorem test_no_word : decodeTableWord 32 0x0C000000 = none ∧ user.withFetchWord 32 0x0C000000 = user := ⟨rfl, rfl⟩

/-! Ill-formed operands, one for each check. -/

/-- R382, R383: an idle frame; one whose flits are not as many as SLOTV marks, of three codewords, with 545 wrong symbols, and with the reserved
bit set. -/
def fr0 : Frame := { wrong := [0, 0, 0, 0], ctl := 0, flits := [] }
theorem test_frame_ill : fr0.wellFormed = true ∧ ({ fr0 with ctl := 2 ^ 40 } : Frame).wellFormed = false ∧
    ({ fr0 with wrong := [0, 0, 0] } : Frame).wellFormed = false ∧ ({ fr0 with wrong := [0, 0, 0, 545] } : Frame).wellFormed = false ∧
    ({ fr0 with ctl := 2 ^ 25 } : Frame).wellFormed = false := by decide
/-- R84, R105: row 4, value 64 and a value wrong twice. -/
theorem test_upset_ill : ({ wrong := [(0, 0, 1)], residue := true } : StepUpset).wellFormed = true ∧
    ({ wrong := [(4, 0, 1)], residue := false } : StepUpset).wellFormed = false ∧
    ({ wrong := [(0, 64, 1)], residue := false } : StepUpset).wellFormed = false ∧
    ({ wrong := [(0, 0, 1), (0, 0, 2)], residue := false } : StepUpset).wellFormed = false := by decide
/-- R441: a unit past the end of each store. -/
theorem test_scrub_ill : Instr.wellFormed (.scrub (.localStore 0 0xFFF) []) = true ∧ Instr.wellFormed (.scrub (.localStore 0 0x1000) []) = false ∧
    Instr.wellFormed (.scrub (.window 0 0x1000) []) = false ∧ Instr.wellFormed (.scrub (.scratch 0 0x300000) []) = false ∧
    Instr.wellFormed (.scrub (.hbm (2 ^ 34)) []) = false ∧ (Upset.store (.localStore 0 0x8000) 1).wellFormed = false := by decide
/-- R31: a half access of more than 32 bits; and the operands checked where they stand. -/
theorem test_operands_ill : halfFits .low (2 ^ 32) = false ∧ halfFits .whole (2 ^ 32) = true ∧
    Instr.wellFormed (.vectorWriteback 0 (some ⟨1024, 0, .residue⟩)) = false := by decide
theorem test_operands_ill2 : Instr.wellFormed (.ringWrite 0 3 0 []) = false ∧ Instr.wellFormed (.linkUp 0 ⟨0, 1⟩ 0) = false ∧
    Instr.wellFormed (.registerWrite (.host 0) 0 (2 ^ 32) .high) = false := ⟨rfl, rfl, rfl⟩

/-! The queue and reset. -/

theorem witness_StepOnEmptyQueue : State.reset.pending = [] := rfl
theorem witness_StepKeepsMemoryCanonical : State.reset.memOk = true := by decide +kernel

/-! Pilot. -/

/-- At shift counts, the whole word and a destination that is also a source: nothing holds these in IS. -/
theorem witness_OprResultsOfOneCycle : fR.hi = 0 ∧ user.canIssue 5 (usesS [1, 3] 9 1) = true ∧
    user.canIssue 5 (usesS [1, 1] 1 1) = true ∧ user.canIssue 5 (usesS [31, 0] 0 1) = true := by decide +kernel
theorem witness_MultiplyDivideAndWordResults :
    (∀ l ∈ [1, 3, 4], user.canIssue 5 (usesS [1, 3] 9 l) = true) ∧
    (∀ l ∈ [18, 34], user.canIssue 5 { usesS [1, 3] 9 l with unitFree := (user.cell 5).pil.intDiv } = true) := by decide +kernel
theorem witness_ImmediateResults : user.canIssue 5 (usesS [1] 9 1) = true ∧
    ({ rd := 9, ra := 1, mid := 0, shamt := 31 } : ShFmt).shamt.toNat < 32 := by decide +kernel
/-- A field of 64 bits at 63, in the word and in rb; the last halfword. -/
theorem witness_ConstantAndBitFieldResults : user.canIssue 5 (usesS [] 9 1) = true ∧ user.canIssue 5 (usesS [9] 9 1) = true ∧
    user.canIssue 5 (usesS [1] 9 1) = true ∧ user.canIssue 5 (usesS [1, 9] 9 1) = true ∧
    (let f : BfFmt := { rd := 9, ra := 1, pos := 63, lenm1 := 63 }; f.pos.toNat = 63 ∧ f.lenm1.toNat + 1 = 64) ∧
    ((user.cell 5).pil.readS 6).toNat % 64 = 63 ∧ ((user.cell 5).pil.readS 6).toNat / 256 % 64 + 1 = 64 ∧
    user.canIssue 5 (usesS [1, 6] 9 1) = true ∧ user.canIssue 5 (usesS [1, 6, 9] 9 1) = true := by decide +kernel
theorem witness_CountAndPermuteResults : user.canIssue 5 (usesS [1] 9 1) = true ∧ user.canIssue 5 (usesS [1, 6] 9 1) = true := by
  decide +kernel
/-- s1 and s7 hold 7, s3 holds 2: both ways of every branch. -/
theorem witness_BranchAndJumpResults : user.canIssue 5 { Uses.none' with s := [1, 7] } = true ∧
    user.canIssue 5 { Uses.none' with s := [1, 3] } = true ∧ user.canIssue 5 (usesS [] 1 1) = true ∧
    user.canIssue 5 (usesS [1] 1 1) = true ∧ (user.cell 5).pil.readS 1 = (user.cell 5).pil.readS 7 ∧
    ((user.cell 5).pil.readS 3).toNat < ((user.cell 5).pil.readS 1).toNat := by decide +kernel

/-- The last doubleword that user level may load, the window's last, and the slice's first 16 bytes. -/
def loadU (ra rd : BitVec 5) (wide : Bool) : Uses := { s := [ra], w := [], dst := some (wide, rd), lat := 0, unitFree := 0, mem := true }
theorem witness_OwnLoadResults :
    (let a := 0x3EFF8
     ((user.cell 5).pil.readS 4 + 0#64).toNat = ownAddr 5 .localStore 0x1000 ∧ a + 8 ≤ ownSize .localStore false ∧
       user.canIssue 5 (loadU 4 9 false) = true ∧ user.loadPort 5 (loadU 4 9 false) 0x1000 8 ≤ 100) ∧
    (((user.cell 5).pil.readS 8 + 0#64).toNat = ownAddr 5 .slice 0 ∧ user.canIssue 5 (loadU 8 9 true) = true ∧
      user.loadPort 5 (loadU 8 9 true) (ownAddr 5 .slice 0) 16 ≤ 100) ∧
    (user.cell 5).stores = [] ∧ ((user.cell 5).ownMem .slice).bad = [] ∧ ((user.cell 5).ownMem .slice).soft = [] ∧
    (user.until 101).clk.cc = 101 := by decide +kernel
theorem witness_OwnLoadResults_window : let c : Cell := { userCell with pil := { userPilot with s := [(1, 0x13FFF8)] } }
    ((withCell c).cell 5).pil.readS 1 = BitVec.ofNat 64 (ownAddr 5 .window 0x3FFF8) ∧ 0x3FFF8 + 8 ≤ ownSize .window false ∧
    (withCell c).canIssue 5 (loadU 1 9 false) = true ∧ (withCell c).loadPort 5 (loadU 1 9 false) 0x13FFF8 8 ≤ 100 := by decide +kernel
theorem witness_unsplit : unsplit .localStore 0x3EFF8 8 ∧ unsplit .window 0x10 16 ∧ unsplit .slice 63 1 ∧ ¬ unsplit .slice 63 2 := by
  simp [unsplit]
theorem witness_OwnStoreResults : (withCell superCell).canIssue 5 { loadU 4 0 false with s := [4, 1], dst := none, lat := 1 } = true ∧
    (withCell superCell).canIssue 5 { loadU 8 0 false with s := [8], w := [1], dst := none, lat := 1 } = true ∧
    ((withCell superCell).cell 5).exc.pl = true ∧ ((withCell superCell).cell 5).pil.portFree .window ≤ 100 ∧
    0x3FFF8 + 8 ≤ ownSize .localStore true := by decide +kernel
/-- A store of two bytes on its way to the slice, visible at the end of cc 103. -/
def storeOne : PendStore := { by' := .pilot, store := .slice, off := 0x30, bytes := [1, 2], vis := 103 }
theorem witness_StoreBecomesVisible : ((withCell { userCell with stores := [storeOne] }).cell 5).stores = [storeOne] ∧ storeOne.vis < 104 := by
  decide +kernel
/-- The region's first byte and the first byte past the local store. -/
theorem witness_ForbiddenAccessFaults : user.canIssue 5 (loadU 2 9 false) = true ∧ (user.cell 5).exc.pl = false ∧
    (let c : Cell := { userCell with pil := { userPilot with s := [(1, 0x3F000), (2, 0x40000)] } }
     ((withCell c).cell 5).pil.readS 1 = 0x3F000 ∧ ((withCell c).cell 5).pil.readS 2 = 0x40000 ∧
       (withCell c).canIssue 5 (loadU 1 9 false) = true ∧ (withCell c).loadPort 5 (loadU 1 9 false) 0x3F000 1 ≤ 100) := by decide +kernel

/-! Floating point and short vectors. -/

theorem witness_ScalarFloatResults : (∀ l ∈ [3, 4], user.canIssue 5 (usesW [1, 2] true 9 l) = true) ∧
    (∀ l ∈ [9, 14, 24], user.canIssue 5 { usesW [1, 2] true 9 l with unitFree := (user.cell 5).pil.fpDiv } = true) ∧
    (∀ l ∈ [10, 16, 30], user.canIssue 5 { usesW [1] true 9 l with unitFree := (user.cell 5).pil.fpDiv } = true) := by decide +kernel
theorem witness_ScalarFloatMoveAndCompareResults : user.canIssue 5 (usesW [1] true 9 1) = true ∧
    user.canIssue 5 { usesS [1] 0 1 with dst := some (true, 9) } = true ∧ user.canIssue 5 (usesW [1] false 9 1) = true ∧
    user.canIssue 5 (usesW [1, 2] false 9 2) = true := by decide +kernel
theorem witness_FusedAndConversionResults : (∀ l ∈ [4, 5], user.canIssue 5 (usesW [1, 2, 3] true 9 l) = true) ∧
    cvtFmt 0 = some .fp64 ∧ (cvtFmt 0xA).map Elem.isFloat = some false ∧
    user.canIssue 5 { s := [], w := [1], dst := some (false, 9), lat := 3, unitFree := 0, mem := false } = true ∧
    user.canIssue 5 { s := [1], w := [], dst := some (true, 9), lat := 3, unitFree := 0, mem := false } = true := by decide +kernel
theorem witness_ShortVectorElementResults : wType 0 = some .fp64 ∧ wType 1 = some .fp32 ∧ (wType 0xA).map Elem.isFloat = some false ∧
    (∀ l ∈ [2, 3, 4], user.canIssue 5 (usesW [1, 2] true 9 l) = true) ∧
    (∀ l ∈ [4, 5], user.canIssue 5 (usesW [1, 2, 9] true 9 l) = true) := by decide +kernel
theorem witness_ShortVectorMoveResults : user.canIssue 5 (usesW [1, 2] false 9 2) = true ∧ user.canIssue 5 (usesW [1] true 9 2) = true ∧
    user.canIssue 5 { usesS [1] 0 2 with dst := some (true, 9) } = true ∧ (15 : BitVec 5).toNat < 128 / Elem.width .uint8 ∧
    user.canIssue 5 (usesW [1] false 9 2) = true ∧
    user.canIssue 5 { s := [1], w := [9], dst := some (true, 9), lat := 2, unitFree := 0, mem := false } = true ∧
    user.canIssue 5 { s := [], w := [1, 9], dst := some (true, 9), lat := 2, unitFree := 0, mem := false } = true ∧
    user.canIssue 5 (usesW [1, 2, 9] true 9 2) = true ∧ (List.range 16).any (fun k => wType (BitVec.ofNat 4 k) == some .uint8) = true := by
  decide +kernel

/-! System functions and exceptions. -/

theorem witness_FloatControlResults : user.canIssue 5 (usesS [] 9 2) = true ∧ user.canIssue 5 { Uses.none' with s := [1] } = true ∧
    (let s := after (execFclrf 5 { rd := 0, ra := 1, imm := 0 } user)
     (s.cell 5).regs = [{ off := 0x208, val := 7, vis := 100, outer := false }]) ∧
    (let s := after (execFsetm 5 { rd := 0, ra := 1, imm := 0 } user)
     (s.cell 5).regs = [{ off := 0x200, val := 7, vis := 100, outer := false }]) := by decide +kernel
/-- A pilot that runs command 4, with one word in its mailbox and an open guard window that ended in cc 90. -/
def runCell : Cell :=
  { userCell with mbox := { Mbox.reset with words := [3] }, exc := { userCell.exc with guardEnd := some 90 },
                  run := some { cmd := 4, kernel := 0, queue := 3, cls := .comet, port := 0, gen := 1, seq := 0 } }
theorem witness_WaitAndKernelEndResults : (withCell runCell).canIssue 5 Uses.none' = true ∧ runCell.mbox.words ≠ [] ∧
    runCell.windowSettled 100 ≤ 100 ∧ runCell.arr.passes.length ≤ 0 ∧ user.canIssue 5 Uses.none' = true ∧
    (user.cell 5).exc.guardEnd = none ∧ (withCell runCell).canIssue 5 { Uses.none' with s := [1] } = true ∧
    (∀ m ∈ runCell.mov.cmds, ((withCell runCell).cell 5 |>.pil.readS 1).toNat < m.ticket) ∧
    (withCell runCell).canIssue 5 (usesS [] 9 1) = true ∧ runCell.mov.cmds = [] ∧ runCell.exc.guardEnd = some 90 ∧
    (withCell runCell).live 5 = true := by decide +kernel
theorem witness_KernelEnd : runCell.vecDone ≤ 100 ∧ runCell.storesDone ≤ 100 ∧ runCell.pil.loadsDone ≤ 100 ∧ runCell.arr.passes = [] ∧
    runCell.pil.remotes = [] ∧ runCell.exc.pabort = false ∧ runCell.run.isSome = true := by decide +kernel
theorem witness_ReservedEncodingsTakeIllegal : user.canIssue 5 (usesS [1, 3] 9 1) = true ∧ user.canIssue 5 (usesS [] 9 1) = true ∧
    user.canIssue 5 (usesS [1] 9 1) = true ∧ user.canIssue 5 Uses.none' = true ∧ (0x20 : BitVec 6).toNat = 32 := by decide +kernel
/-- 48 is a stack pointer to push on, 47 none. -/
def trapOne : Trap := { code := 1, wr := false, half := false, info := 0, insn := 0xFFFFFFFF, addr := 0, rpc := 0x100100 }
/-- The pilot in the midst of an entry, a return or a gate call, its next step at the end of cc 100. -/
def seqOf (step : SeqStep) : PilSeq := { step := step, at' := 100, insn := 0, since := 99, settled := 0 }
def seqCell (step : SeqStep) : Cell := { userCell with pil := { userPilot with seq := some (seqOf step) } }
theorem witness_ExceptionEntry : userCell.exc.indf = false ∧
    (∀ step ∈ [SeqStep.enter trapOne false none, .enter trapOne true none, .line], (seqCell step).pil.seq = some (seqOf step) ∧
      (seqOf step).step = step ∧ (seqOf step).at' < 101 ∧ (seqCell step).ls.bad = [] ∧ (seqCell step).win.bad = [] ∧
      (seqCell step).win.soft = []) ∧
    pushValid (seqCell .line).exc.ssp = true ∧ pushValid ((seqCell .line).pil.coming 2) = true ∧ (seqCell .line).exc.pl = false ∧
    userPilot.wbs = [] ∧ pushValid 48 = true ∧ pushValid 47 = false := by decide +kernel
theorem witness_DoubleAndTripleFault : (∀ step ∈ [SeqStep.enter trapOne false none, .double trapOne 0x2F],
      let c : Cell := { seqCell step with exc := { userCell.exc with ssp := 0x2F } }
      c.pil.seq = some (seqOf step) ∧ c.exc.indf = false ∧ c.ls.bad = [] ∧ pushValid c.exc.ssp = false) ∧
    (let c : Cell := { userCell with exc := { userCell.exc with indf := true } }
     c.exc.indf = true ∧ c.id.inReset = none ∧ isInterrupt trapOne.code = false ∧ trapOne.code ≠ 0x10) := by decide +kernel
/-- Two pending: the one of the lower code is due. -/
def pendCell : Cell := { userCell with exc := { userCell.exc with hubreq := true, mbox := true, ienMbox := true } }
theorem witness_InterruptTakenAtBoundary : (withCell pendCell).live 5 = true ∧ pendCell.pil.mode ≠ .idle ∧ pendCell.pil.seq = none ∧
    pendCell.vec.vorb = none ∧ pendCell.pil.rep = none ∧ pendCell.pil.next ≤ 100 ∧ pendCell.exc.im = false ∧ pendCell.exc.indf = false ∧
    pendCell.exc.guardEnd = none ∧ pendCell.exc.mchk = false := by decide +kernel
/-- Gate 2 of the table at 0x100 of the window: SUP = 1, entry word 0x100; the arguments (s13, s14) are not checked. -/
def gateCell : Cell :=
  let c := { userCell with exc := { userCell.exc with gb := 0x10, gcount := 3 } }
  { c with win := (Mem.empty.writeN 0x120 8 (4 * 0x100 + 2 ^ 18 + 2 ^ 19)) }
def gateGot (d0 d1 : Nat) : PilSeq := { seqOf (.gate 2) with got := leBytes d0 8 ++ leBytes d1 8 }
theorem witness_GateEntry : (withCell gateCell).canIssue 5 { Uses.none' with s := (List.range 32).map (BitVec.ofNat 5) } = true ∧
    2 < gateCell.exc.gcount.toNat ∧ 0x100 + 32 + 16 ≤ 0x40000 ∧ gateCell.stores = [] ∧ gateCell.win.bad = [] ∧ gateCell.win.soft = [] ∧
    (∀ d1 ∈ [0, 2, 2 ^ 33], let q := gateGot (4 * 0x100 + 2 ^ 18 + 2 ^ 19) d1
      q.bad = false ∧ q.at' < 101 ∧ leNat (q.got.take 8) = 4 * 0x100 + 2 ^ 18 + 2 ^ 19 ∧ leNat (q.got.drop 8) = d1 ∧
        gateCell.exc.gateBad 2 (leNat (q.got.take 8)) (leNat (q.got.drop 8)) = false) ∧
    gateCell.exc.gateBad 2 0 0 = true ∧ gateCheck 5 gateCell.pil 0 = true ∧
    (∀ stay ∈ [false, true], let step := SeqStep.enter trapOne stay (some (0x100400, 0x100104))
      (seqCell step).pil.seq = some (seqOf step) ∧ pushValid (seqCell step).exc.ssp = true ∧ pushValid ((seqCell step).pil.coming 2) = true) := by
  decide +kernel
/-- A frame of user level at 0x2000, read whole. -/
def popGot (stat : Nat) : PilSeq :=
  { seqOf (.pop 0x2000) with got := [0x100200, stat, 0, 0, 0x2000, 9].flatMap fun n => leBytes n 8 }
theorem witness_ReturnRestoresFrame : user.canIssue 5 { Uses.none' with s := [1, 2] } = true ∧
    userCell.exc.pendingCode = none ∧ (userCell.pil.readS 2).toNat % 8 = 0 ∧ (userCell.pil.readS 2).toNat + 48 ≤ 0x3F000 ∧
    (let c := { userCell with pil := { userPilot with seq := some { seqOf (.pop 0x2000) with
        reads := [⟨100, .own .localStore 0x2000 8, 0x2000⟩, ⟨101, .own .localStore 0x2008 8, 0x2008⟩] } } }
     ((withCell c).cell 5).stores = [] ∧ ((withCell c).cell 5).ls.bad = [] ∧ ((withCell c).cell 5).ls.soft = []) ∧
    (popGot 4).bad = false ∧ leNat (((popGot 4).got.drop 8).take 8) % 4 = 0 ∧ leNat (((popGot 3).got.drop 8).take 8) % 4 ≠ 0 ∧
    userCell.exc.ceil = false := by decide +kernel

/-! Block-repeat, landing, ordering, remote requests, engine commands. -/

/-- s3 = 2 units from 0x1000 to 0x1800; none with s3 = 0. -/
theorem witness_RepeatResults :
    user.canIssue 5 { s := [3, 4, 5, 0, 0], w := [], dst := some (false, 0), lat := 1, unitFree := 0, mem := true } = true ∧
    user.canIssue 5 { s := [3, 4, 5, 0, 9], w := [2, 3], dst := some (false, 9), lat := 1, unitFree := 0, mem := true } = true ∧
    (user.cell 5).pil.readS 3 ≠ 0 ∧
    (let c : Cell := { userCell with pil := { userPilot with s := [(4, 0x1000)] } }
     ((withCell c).cell 5).pil.readS 3 = 0 ∧
       (withCell c).canIssue 5 { s := [3, 4, 5, 0, 0], w := [], dst := some (false, 0), lat := 1, unitFree := 0, mem := true } = true) := by
  decide +kernel
/-- Operation `op` under way with units of `n` bytes; the doubleword at 0x1000 begins with 2. -/
def repState (op : BitVec 3) (n : Nat) : RepState := { op := op, rd := 9, ra := 3, rb := 2, size := n, insn := 0, next := 100 }
def repCell (op : BitVec 3) (n : Nat) : Cell :=
  { userCell with pil := { userPilot with rep := some (repState op n) }, ls := Mem.empty.writeN 0x1000 8 2 }
theorem witness_RepeatIteration : (∀ x ∈ [((0 : BitVec 3), 8), (1, 8), (2, 1), (3, 1), (4, 8), (5, 1), (6, 1), (7, 2)],
      (repCell x.1 x.2).pil.rep = some (repState x.1 x.2) ∧ (repState x.1 x.2).waits = none ∧ (withCell (repCell x.1 x.2)).live 5 = true ∧
        (repCell x.1 x.2).exc.takeable 100 = none) ∧ (repCell 0 8).stores = [] ∧ (repCell 0 8).ls.bad = [] ∧ (repCell 0 8).ls.soft = [] ∧
    (repCell 0 8).pil.remotes = [] ∧ 0x1000 + 8 ≤ ownSize .localStore false ∧ 0x1800 % 8 + 8 ≤ 8 := by decide +kernel
/-- The search of 2 stops at once (its unit is 2); that for another value goes on, and the copy has a unit left after one. -/
theorem test_repeat_stops_or_goes_on :
    ((after (execRepIteration 5 (withCell (repCell 2 1)))).cell 5).pil.readS 9 = 1 ∧
    ((after (execRepIteration 5 (withCell (repCell 3 1)))).cell 5).pil.readS 3 = 1 ∧
    ((after (execRepIteration 5 (withCell (repCell 0 8)))).cell 5).pil.readS 4 = 0x1008 := by decide +kernel
/-- A result for s9 and a vector instruction, both due in this cc. -/
def wbCell : Cell :=
  { userCell with pil := { userPilot with wbs := [{ wide := false, reg := 9, val := 77, due := 100, bad := false, load := false }] } }
def flightCell : Cell :=
  { userCell with vec := { userCell.vec with flight := [{ writes := [], flags := 1, due := 100, ew := 64, pc := 0 }] } }
theorem witness_ResultsLand : (withCell wbCell).cells = [((5 : CellId).toNat, wbCell)] ∧ (withCell wbCell).live 5 = true ∧
    wbCell.stores = [] ∧ wbCell.regs = [] ∧ wbCell.pil.micros = [] ∧ wbCell.arr.passes = [] ∧ wbCell.pil.wbs.map PilotWb.due = [100] ∧ flightCell.vec.flight.map VecFlight.due = [100] ∧
    flightCell.pil.wbs = [] ∧ (withCell flightCell).live 5 = true := by decide +kernel
theorem test_result_lands : ((after (execPilotWriteback 5 (withCell wbCell))).cell 5).pil.readS 9 = 77 ∧
    ((after (execVectorWriteback 5 none (withCell flightCell))).cell 5).fp.vec = 1 := by decide +kernel
def storeU : Uses := { s := [4, 1], w := [], dst := none, lat := 1, unitFree := 0, mem := true }
theorem witness_OrderingResults : user.canIssue 5 (loadU 4 9 false) = true ∧ user.loadPort 5 (loadU 4 9 false) 0x1000 8 ≤ 100 ∧
    user.canIssue 5 { Uses.none' with mem := true } = true ∧ (user.cell 5).settledAt ≤ 100 ∧ (user.cell 5).pil.remotes = [] ∧
    user.canIssue 5 storeU = true ∧ (user.cell 5).pil.loadsDone ≤ 100 := by decide +kernel
theorem witness_OrderingResults_strel : let s1 := (user.pilotWhy 5 2).until 101
    s1.fetches 5 = true ∧ (user.cell 5).settledAt ≤ 101 ∧ user.memPort 5 0x1000 ≤ 101 ∧ (s1.cell 5).pil.remotes = [] ∧ s1.clk.cc = 101 ∧
      ((s1.cell 5).pil.readS 4 + 0#64).toNat = ownAddr 5 .localStore 0x1000 ∧ 0x1000 + 8 ≤ ownSize .localStore false := by decide +kernel
/-- An ACQR of tile scope whose invalidation has ended. -/
def acqrCell : Cell :=
  { userCell with pil := { userPilot with acqr := some { whole := true, lo := 0, hi := 0, due := 90000 }, hold := true } }
theorem witness_OrderingResults_acqr : acqrCell.pil.acqr = some { whole := true, lo := 0, hi := 0, due := 90000 } ∧
    (withCell acqrCell).cells = [((5 : CellId).toNat, acqrCell)] ∧ ({ whole := true, lo := 0, hi := 0, due := 90000 } : AcqrState).pos = 0 ∧
    ({ whole := true, lo := 0, hi := 0, due := 90000 } : AcqrState).places ≤ 90000 ∧
    ({ withCell acqrCell with clk := { Clock.reset with cc := 90000 } } : State).live 5 = true := by decide +kernel

/-- A remote store of two bytes to HBM and a remote load, not yet performed, performed, and answered. -/
def remoteOne (load performed : Bool) (got : Option (List Byte)) : Remote :=
  { req := 3, load := load, addr := 0x10000000100, len := 2, bytes := if load then [] else [8, 9],
    dest := if load then some { wide := false, reg := 9, ext := .zero } else none, total := 2, at' := 0, mate := none,
    acquire := false, performed := performed, got := got, err := false, since := 0 }
def remoteState (r : Remote) : State :=
  { withCell { userCell with pil := { userPilot with remotes := [r] } } with hbm := { HbmSys.reset with live := 256 } }
theorem witness_RemoteAccessResults : place (remoteState (remoteOne false false none)).hbmBytes 5 0x10000000100 = .hbm 0x100 ∧
    (remoteState (remoteOne false false none)).hbm.fencedAt 0x100 = false ∧ (remoteState (remoteOne false false none)).hbm.mem.bad = [] ∧
    (remoteState (remoteOne false false none)).live 5 = true ∧
    ((remoteState (remoteOne true false none)).hbm.cache (tileOf 5)).find 1 = none ∧ (remoteOne true true (some [1, 2])).dest.isSome = true ∧
    (remoteOne true true (some [1, 2])).mate = none ∧ (remoteOne true true (some [1, 2])).back ≤ 100 ∧
    place (remoteState (remoteOne false false none)).hbmBytes 5 0x1060000100 = .slice 6 0x100 ∧
    (remoteState (remoteOne false false none)).cellDown 6 = false ∧
    ((remoteState (remoteOne false false none)).cell 6).slice.bad = [] ∧ ((remoteState (remoteOne false false none)).cell 6).stores = [] ∧
    (let s := { remoteState (remoteOne false true none) with clk := { Clock.reset with hc := 36000 } }
     (remoteOne false true none).since + 36000 ≤ s.clk.hc ∧ s.live 5 = true) := by decide +kernel
theorem witness_RemoteAccessResults_lost :
    let s := (remoteState (remoteOne false false none)).updCell 200 fun c => { c with router := { c.router with owed := [(.cell 5, 3)] } }
    s.owedBy 5 3 = some 200 ∧ s.live 5 = true ∧ (s.cell 5).pil.remotes = [remoteOne false false none] := by decide +kernel
theorem test_remote_load_returns :
    ((after (execRemoteResponse 5 3 (remoteState (remoteOne true true (some [1, 2]))))).cell 5).pil.readS 9 = 0x0201 := by
  decide +kernel

/-- An INT8 pass of 1 × 1 × 16: A at 0 holds 1 to 16, B at 0x1000 holds twos, the output lies at 0x2000. -/
def passDw : List Word64 :=
  [0xB + 0xB * 2 ^ 4 + 0xA * 2 ^ 8 + 1 * 2 ^ 40, 1 + 1 * 2 ^ 9 + 16 * 2 ^ 16 + 7 * 2 ^ 40, 0x1000 * 2 ^ 28, 0x2000 * 2 ^ 28, 0, 0, 64, 0]
def passMem : Mem := (Mem.empty.writeBytes 0 ((List.range 16).map fun i => BitVec.ofNat 8 (i + 1))).writeBytes 0x1000 (List.replicate 16 2)
def descCell : Cell := { userCell with ls := Mem.empty.writeBytes 0x1000 (dwBytes passDw) }
theorem witness_EngineCommandsIssue : let d := Desc.ofWords passDw
    (withCell descCell).canIssue 5 { Uses.none' with s := [4], mem := true } = true ∧ descCell.arr.passes.length < 3 ∧
    (descCell.pil.readS 4).toNat % 64 = 0 ∧ ((List.range 8).map fun i => BitVec.ofNat 64 (descCell.ls.readN (0x1000 + 8 * i) 8)) = passDw ∧
    descReserved passDw = false ∧ d.ok descCell.arr.orbit descCell.arr.lastIssued.toNat = true ∧ descCell.arr.restart.toNat ≤ d.pidx ∧
    descCell.ls.bad = [] ∧ descCell.stores = [] ∧
    (withCell descCell).canIssue 5 { usesS [4] 9 1 with mem := true } = true ∧ descCell.mov.cmds.length < 16 ∧
    descCell.mov.stopped = false := by decide +kernel
/-- A table entry of one micro-op: FINAL ADD rd := ra + rb (R194, R195). -/
def customCell : Cell :=
  { userCell with uc := { udt := [(0, 3)], store := [(0, BitVec.ofNat 64 (2 ^ 63 + 0x01 * 2 ^ 56 + 8 * 2 ^ 52 + 9 * 2 ^ 48 + 10 * 2 ^ 44))], index := 0 } }
theorem witness_EngineCommandsIssue_custom : let w := (customCell.uc.udt.get 0 0).toNat
    let n := (customCell.uc.store.get 0 (w / 4 % 2 ^ 9)).toNat
    w % 2 = 1 ∧ w / 2 % 2 = 1 ∧ w / 2 ^ 11 % 2 ^ 6 = 0 ∧ n / 2 ^ 52 % 16 = 8 ∧ n / 2 ^ 48 % 16 = 9 ∧ n / 2 ^ 44 % 16 = 10 ∧
    n / 2 ^ 56 % 64 = 0x01 ∧ (withCell customCell).canIssue 5 { Uses.none' with s := [9, 1, 3] } = true ∧
    (withCell customCell).microWait 5 { rd := 9, ra := 1, rb := 3, imm := 0, entry := 0 } [n] ≤ 100 := by decide +kernel
theorem test_custom_adds :
    ((after (execCustom 5 { rd := 9, ra := 1, rb := 3, imm := 0, entry := 0 } (withCell customCell))).cell 5).pil.readS 9 = 9 := by
  decide +kernel

/-! Long-vector unit. -/

/-- Element type `vt`, length `vl`, v1 of ones and twos. -/
def vecCell (vt : BitVec 4) (vl : Nat) : Cell :=
  { userCell with vec := { Vec.reset with vt := vt, vl := vl, v := [(1, BitVec.ofNat 8192 (1 + 2 * 2 ^ 32 + 3 * 2 ^ 64))], m := [(3, 5)] } }
theorem witness_VectorElementResults : (∀ t ∈ [(0 : BitVec 4), 1, 0xA],
      (withCell (vecCell t 8)).canIssue 5 (vecUses (vecCell t 8).vec false 2) = true ∧
      (withCell (vecCell t 8)).canIssue 5 (vecUses (vecCell t 8).vec true 2) = true) ∧
    (vecCell 1 8).vec.type.isFloat = true ∧ (vecCell 0xA 8).vec.type.isFloat = false := by decide +kernel
theorem witness_VectorPredicateResults : (withCell (vecCell 1 8)).canIssue 5 Uses.none' = true ∧
    (withCell (vecCell 1 8)).canIssue 5 { Uses.none' with dst := some (false, 9), lat := 3 } = true ∧ (15 : BitVec 5).toNat < 16 := by
  decide +kernel
theorem witness_VectorMoveResults : let c := vecCell 0xA 8
    vtValid c.vec.vt.toNat = true ∧ (c.pil.readS 3).toNat < 8192 / c.vec.type.width ∧
    (withCell c).canIssue 5 { Uses.none' with s := [3], dst := some (false, 9), lat := 3 } = true ∧
    (withCell c).canIssue 5 (scalarSrc [3] 1 c.vec) = true ∧ (withCell c).canIssue 5 (scalarSrc [] 1 c.vec) = true ∧
    (withCell c).canIssue 5 { Uses.none' with s := [3] } = true ∧ vtValid (1 : BitVec 5).toNat = true ∧
    (withCell c).canIssue 5 (usesS [1] 9 3) = true := by decide +kernel
/-- VCVT of E4M3 into FP32 with PART 2 and 256 elements, VBQ of FP32 into E2M1 with its last PART. -/
theorem witness_VectorConversionAndReductionResults : Elem.ofCode 7 ≠ none ∧ Elem.ofCode 1 = some .fp32 ∧
    (vecCell 1 256).vec.vl ≤ 8192 / max (Elem.width .e4m3) (Elem.width .fp32) ∧ 3 < (32 + 8 - 1) / 8 ∧
    (vecCell 1 256).vec.vt = 1 ∧ vbqParts (Elem.width .e2m1) ≤ 7 ∧ (withCell (vecCell 1 256)).canIssue 5 Uses.none' = true ∧
    (withCell (vecCell 0xA 8)).canIssue 5 { Uses.none' with s := [3] } = true ∧ ((vecCell 0xA 8).pil.readS 3).toNat < 8192 / 32 ∧
    (vecCell 0xA 8).vec.vl ≤ 8192 / (vecCell 0xA 8).vec.type.width := by decide +kernel
/-- Unit-stride words of the local store, strided ones of the slice, and indexed ones. -/
theorem witness_VectorMemoryResults : let c := vecCell 1 3
    (∀ i < 3, (c.pil.readS 4 + BitVec.ofNat 64 (i * 4)).toNat = ownAddr 5 .localStore (0x1000 + 4 * i) ∧ (0x1000 + 4 * i) % 4 = 0 ∧
      0x1000 + 4 * i + 4 ≤ ownSize .localStore false) ∧
    (∀ i < 3, (c.pil.readS 8 + BitVec.ofNat 64 i * c.pil.readS 4).toNat = ownAddr 5 .slice (0x1000 * i)) ∧
    ((List.range 3).filter fun i => (c.vec.mreg 3).testBit i) = [0, 2] ∧
    (withCell c).canIssue 5 { Uses.none' with s := [4], mem := true } = true ∧
    (withCell c).canIssue 5 { Uses.none' with s := [8, 4], mem := true } = true ∧ c.stores = [] ∧ (c.ownMem .slice).bad = [] ∧
    (c.ownMem .slice).soft = [] := by decide +kernel
/-- An orbit in which cell 5 has cell 6 after it and cell 4 before it. -/
def orbitReg : OrbitReg := { next := 6, nextV := true, nextX := false, oport := 0, prev := 4, prevV := true, prevX := false, iport := 0 }
def vecOrbit : Cell := { vecCell 0xA 8 with arr := { Arr.reset with orbit := orbitReg } }
def orbitPkt (rows : BitVec 4) : OrbitPkt :=
  { rows := rows, rg := 0, lastRg := true, pidx := 7, tag := 2, kind := 2, n := 1, hop := 1, dstg := 5, srcg := 4, srcMod := 0, words := [1] }
def waiting : Vorb :=
  { role := 3, ret := false, tag := 2, n := 1, onReturn := false, vd := 9, va := 0, int := true, vrm := 0, since := 0, insn := 0 }
theorem witness_VectorQueueAndOrbitResults : (withCell vecOrbit).canIssue 5 Uses.none' = true ∧ vecOrbit.vec.feed.length < 32 ∧
    vecOrbit.vec.feedSkip = 0 ∧ vecOrbit.vecDone ≤ 100 ∧
    (let c := { vecOrbit with pil := { userPilot with s := [(1, 2 + 1 * 2 ^ 22), (2, 2 + 3 * 2 ^ 22)] } }
     (withCell c).canIssue 5 { Uses.none' with s := [1] } = true ∧ (c.pil.readS 1).toNat < 2 ^ 25 ∧ (c.pil.readS 1).toNat / 2 ^ 22 % 4 = 1 ∧
       (c.pil.readS 2).toNat / 2 ^ 22 % 4 = 3) ∧
    vecOrbit.vec.inbox = [] ∧ (orbitPkt 0).dstg = 5 ∧ (withCell vecOrbit).live 5 = true ∧ vecOrbit.vec.vorb = none ∧
    (let c := { vecOrbit with vec := { vecOrbit.vec with vorb := some waiting, waitLimit := 100 } }
     waiting.since + c.vec.waitLimit.toNat ≤ 100 ∧ (withCell c).live 5 = true) := by decide +kernel

/-! Passes and the mover. -/

def passOne (stage : PassStage) (step due : Nat) (groups : List RgAcc) : Pass :=
  { dw := passDw, issue := 95, stage := stage, start := 0, step := step, due := due, groups := groups, flags := 0, stall := 0,
    pc := 0, ready := none, half := none, upset := none, fail := none, staged := 0, cend := 100, crow := 0, endFlags := 0 }
def emptyGroup : RgAcc := { init := none, chunks := [], cur := [], hop := 0 }
def passCell (p : Pass) : Cell := { userCell with arr := { Arr.reset with passes := [p] }, slice := passMem }
theorem quiet_passCell (p : Pass) : (passCell p).quiet := ⟨rfl, rfl, rfl, rfl, rfl, rfl, rfl, rfl⟩
theorem witness_PassResults : let s := withCell (passCell (passOne .queued 0 0 []))
    s.cells = [((5 : CellId).toNat, passCell (passOne .queued 0 0 []))] ∧ s.live 5 = true ∧ s.opt.ports = [] ∧ passMem.bad = [] ∧
    (s.cell 5).arr.inbox = [] ∧ (s.cell 5).arr.lost = [] ∧ (s.cell 5).arr.hold = false ∧ (passOne .queued 0 0 []).fail = none ∧
    0 < (Desc.ofWords passDw).steps ∧ (passOne .queued 0 0 []).issue + 6 ≤ 101 ∧ (s.cell 5).arr.feederFree ≤ 101 := by decide +kernel
/-- The operands of its one step, read in cc 100. -/
def passRead : StepRead :=
  let s := withCell (passCell (passOne .stepping 0 101 [emptyGroup]))
  let d := Desc.ofWords passDw
  { at' := 101, ops := (s.stepOps 5 d none (s.readHalf 5 d 0 101) 0).1, ini := [] }
theorem witness_PassResults_step : let p := passOne .stepping 0 101 [emptyGroup]
    let d := Desc.ofWords passDw
    p.ready = none ∧ p.half = none ∧ p.due = 100 + 1 ∧ d.fp32 = false ∧ (passCell p).arr.folds = [] ∧
    p.stall < (passCell p).arr.stallLimit.toNat ∧ d.src = false ∧ passRead.at' = 100 + 1 ∧
    (∀ a ∈ [{ emptyGroup with init := some [0] }], a.init ≠ none) ∧ (passCell p).arr.commitFree ≤ 101 ∧
    (passCell p).arr.orbit.nextX = false ∧ p.staged ≤ 100 := by decide +kernel
theorem witness_PassResults_commit : let d := Desc.ofWords passDw
    let p : Pass := { passOne .committing 1 102 [{ emptyGroup with init := some [0] }] with crow := d.commitCc }
    p.crow = d.commitCc ∧ p.cend = 100 ∧ 0 < d.commitCc ∧ 0 < d.n ∧ d.n * codeWidth d.ofmt % 8 = 0 ∧ 1 = d.rowsOf 0 * d.n := by decide +kernel
/-- (1 + 2 + … + 16) × 2 = 272, as INT32. -/
theorem test_int_pass :
    let s := after (execPassStep 5 { residue := false, wrong := [] } (withCell (passCell (passOne .stepping 0 101 [emptyGroup]))))
    ((after (execPassCommit 5 s)).cell 5).slice.readN 0x2000 4 = 272 := by decide +kernel
/-- R83's example: 0x3FFF_FFFF squared in the three FP32 product modes. -/
theorem test_fp32_product_modes : let o : StepOps := { a := [[0x3FFFFFFF]], asc := [[]], b := [[0x3FFFFFFF]], bsc := [[]], cnt := 1 }
    let d (fpx : Nat) : Desc := Desc.ofWords [BitVec.ofNat 64 (0x1 + 0x1 * 2 ^ 4 + 0x1 * 2 ^ 8 + fpx * 2 ^ 16)]
    (d 1).product o 0 0 0 = ⟨0x407FE001, 0⟩ ∧ (d 2).product o 0 0 0 = ⟨0x407FFFFD, flNX⟩ ∧ (d 3).product o 0 0 0 = ⟨0x407FFFFE, flNX⟩ := by
  decide +kernel
/-- The same with its A rows from the feed queue. -/
def passSrc : List Word64 := passDw.set 0 (passDw.headD 0 ||| BitVec.ofNat 64 (2 ^ 20))
theorem witness_PassControlResults : (withCell (passCell (passOne .queued 0 0 []))).live 5 = true ∧ (orbitPkt 1).rows ≠ 0 ∧
    (∀ p ∈ (passCell (passOne .queued 0 0 [])).arr.passes, p.stage = .queued) ∧
    (let p : Pass := { passOne .stepping 0 20 [] with dw := passSrc, stall := 0x7FF0 }
     p.stage ≠ .committing ∧ (passCell p).stallsOut p = true ∧ (withCell (passCell p)).live 5 = true ∧
       p.due + ((passCell p).arr.stallLimit.toNat - p.stall) ≤ 100) := by decide +kernel
/-- A copy of 16 bytes from 0x1000 to 0x1800 of the local store. -/
def copyOne (started : Bool) : MovCmd :=
  { ticket := 1, addr := 0, dw := [16 * 2 ^ 32, 0x1000, 0x1800, 0], user := false, bad := false, from' := 100, started := started }
def copyCell (m : MovCmd) : Cell := { userCell with mov := { Mover.reset with cmds := [m], issued := 1 }, ls := Mem.empty.writeN 0x1000 8 0x1122334455667788 }
theorem witness_MoverResults : let m := copyOne false
    (withCell (copyCell m)).live 5 = true ∧ m.op = 0 ∧ m.formatBad = false ∧ m.len = 16 ∧ m.src = 0x1000 ∧ m.dst = 0x1800 ∧
    (copyCell m).stores = [] ∧ (copyCell m).ls.bad = [] ∧ (copyOne true).scope ≠ 3 := by decide +kernel
theorem test_copy : ((after (execCopy 5 none (withCell (copyCell (copyOne false))))).cell 5).ls.readN 0x1800 16 = 0x1122334455667788 := by
  decide +kernel

/-! Registers, mailboxes, fabric, ingress. -/

/-- A started module: port 0 up with version 0x32 agreed, queue 3 its own and open, queue 7 port 1's. -/
def hub : State :=
  { State.reset with
    ports := [(0, { PciPort.reset with up := true, st := 2, agreed := 0x32 })], boot := { Boot.reset with ready := true },
    queues := [(3, { Queue.reset with owner := 0, home := 0, st := 1, gen := 1, credits := 100 }),
      (7, { Queue.reset with owner := 1, home := 1, st := 1, gen := 4, credits := 100, lastSeq := 9, nextSeq := 10 })],
    hbm := { HbmSys.reset with live := 256, ilv := (List.range 256).map (BitVec.ofNat 8) } }
theorem witness_MailboxResults : hub.dispOn = true ∧ hub.cellDown 5 = false ∧ hub.barOpen 0 = true ∧ user.live 5 = true ∧
    (hub.cell 5).mbox.words.length < 8 ∧ user.running 5 = true ∧ (user.cell 5).exc.pl = false ∧ (5 : CellId) ≠ 6 ∧
    8 ≤ ({ Mbox.reset with words := List.replicate 8 1 } : Mbox).words.length := by decide +kernel
/-- The eighth word fits, the ninth is dropped. -/
theorem test_mailbox_full :
    let post (n : Nat) : Mbox := ((after (execCellMboxIn 5 (.pilot 6) 9 (hub.updCell 5 fun c =>
      { c with mbox := { c.mbox with words := List.replicate n 1 } }))).cell 5).mbox
    (post 7).words.length = 8 ∧ (post 7).ovf = false ∧ (post 8).words.length = 8 ∧ (post 8).ovf = true ∧ (post 8).drops = 1 := by decide +kernel
theorem witness_RegisterResults : user.live 5 = true ∧ user.running 5 = true ∧
    (after (execSrStateWrite 5 .drain 9 (withCell superCell)) |>.cell 5).regs = [{ off := 0x218, val := 9, vis := 100, outer := false }] ∧ ((withCell superCell).cell 5).exc.pl = true ∧ (user.cell 5).exc.pl = false ∧
    hub.barOpen 0 = true ∧ place user.hbmBytes 5 0xFFFF8A18 = .cellReg 5 0xA18 ∧ place user.hbmBytes 5 0xF0050000 = .hubReg 0x50000 := by
  decide +kernel
/-- A comet flit from cell 5 to cell 6. -/
def flitOne : Flit := { src := .cell 5, dst := .cell 6, cls := .comet, tag := some 4, req := some 3, payload := 1 }
theorem witness_FabricResults : let s := hub.updCell 5 fun c => { c with run := runCell.run }
    s.dispOn = true ∧ s.cellDown 5 = false ∧ s.flitClassed flitOne = true ∧ ((s.cell 5).router.buf 5 (channelOf flitOne)).length < 8 := by decide +kernel
/-- On the wire from router 4 to router 5; a credit of the cell's link to come back; the two columns at which rows end. -/
theorem witness_FabricResults_links : let k := 8 * dirNat .east + channelOf flitOne
    let s := hub.updCell 4 fun c => { c with router := { Router.reset with wire := [(k, [flitOne])] } }
    farEnd 5 .west = some (4, .east) ∧ ((s.cell 4).router.wire.get [] k).head? = some flitOne ∧ farEnd 5 .cell = none ∧
    (let u := hub.updCell 5 fun c => { c with router := { Router.reset with used := [(8 * dirNat .cell + 1, 2)] } }
     u.creditsBack 5 .cell 1 ≠ 0) := by decide +kernel
/-- A comet and a tide flit for the same output. -/
theorem witness_FabricResults_choice : let tideOne : Flit := { flitOne with cls := .tide }
    let x : Router := { Router.reset with bufs := [(8 * 5 + channelOf flitOne, [flitOne]), (8 * 5 + channelOf tideOne, [tideOne])] }
    let o := dirNat (routeDir 5 flitOne.dst)
    (x.contend 5 o 0).length = 0 ∧ (x.contend 5 o 1).length = 1 ∧ (x.contend 5 o 2).length = 1 ∧ x.inUse o (channelOf flitOne) < linkDepth o := by
  decide +kernel
/-- A header of 64 bytes with its check code (R327, R333). -/
def header (op cls q gen seq kern plen caddr rlen : Nat) (payload : List Byte) : List Word64 :=
  let h := [w64 (0x32 + op * 2 ^ 8 + cls * 2 ^ 16 + q * 2 ^ 18 + gen * 2 ^ 32), w64 seq, w64 (kern + plen * 2 ^ 32), w64 caddr, w64 77,
    w64 (rlen * 2 ^ 32), 0, 0]
  h.set 7 (w64 (packetCheck h payload))
def nopHeader : List Word64 := header 2 0 3 1 0 0 0 0x1000 0 []
theorem witness_RingWriteResults : hub.barOpen 0 = true ∧ (hub.pport 0).st = 2 ∧ (hub.queue 3).port = some 0 ∧ (hub.queue 3).st = 1 ∧
    0 = (hub.queue 3).pos % 0x10000 ∧ (hub.queue 3).pos + 64 - (hub.queue 3).head ≤ (hub.queue 3).credits * 64 ∧ (hub.queue 3).ring = [] ∧
    (hub.queue 3).arrived = [] ∧ (hub.queue 3).cur = none ∧ (hub.queue 7).port ≠ some 0 := by decide +kernel
theorem witness_RingWriteResults_header : (dwBytes nopHeader).length = 64 ∧ hdrGen nopHeader = (hub.queue 3).gen.toNat ∧
    (hub.queue 3).gen ≠ 0 ∧ hdrOpcode nopHeader ≠ 1 ∧ hdrPlen nopHeader = 0 ∧ (hub.queue 3).pos + 6464 - (hub.queue 3).head > (hub.queue 3).credits * 64 := by
  decide +kernel
def pktOne (h : List Word64) (mode : PktMode) : Pkt := { hdr := h, mode := mode, got := [], left := 0, at' := 5, freed := 0, torn := false }
theorem witness_PacketResults : hub.hubOn = true ∧ hub.clk.frozen = false ∧ packetCheck nopHeader [] = hdrCheck nopHeader ∧
    hdrSeq nopHeader = (hub.queue 3).nextSeq.toNat ∧ hdrVersion nopHeader = (hub.pport 0).agreed.toNat ∧ hdrBad nopHeader 3 = false ∧
    hdrClass nopHeader = clsNat (hub.queue 3).cls ∧ opcodeOk (hdrOpcode nopHeader) (hdrClass nopHeader) = true ∧
    packetCheck (nopHeader.set 4 0) [] ≠ hdrCheck nopHeader := by decide +kernel
/-- Group 0 of cells 5 and 6 with leader 5, and a table of one kernel with two slots. -/
def hubRun : State :=
  { hub with groups := [(0, { defined := true, formed := true, down := false, leader := 5, orbit := [5, 6] })],
             disp := { hub.disp with len := 1, table := [(0, [w64 7, w64 (0x40 + 0x8000 * 2 ^ 32), w64 0x10000, 0])], nextId := 5 } }
def cmdOne (h : List Word64) (payload : List Byte) (id : Nat) (q : QueueId) (cls : Class) (stage : CmdStage) : Cmd :=
  { id := id, hdr := h, payload := payload, port := 0, epoch := 0, version := 0x32, queue := q, cls := cls, vector := 0, slot := none,
    deadline := none, start := none, released := false, at' := 5, stage := stage, order := 0, admittedAt := 100, arb := 9, members := [],
    later := [], ended := [], resets := [], touched := none, endAt := 0, departed := false, answer := none }
def runHeader : List Word64 := header 1 1 3 1 0 0 64 0x1000 4096 []
theorem witness_PacketResults_slot : (hubRun.disp.entry (hdrKernel runHeader)).isSome = true ∧
    ((hubRun.disp.entry 0).bind hubRun.freeSlot).isSome = true := by decide +kernel
theorem witness_PacketResults_admit : let a := cmdOne nopHeader [] 0 3 .control .accepted
    let b := cmdOne nopHeader [] 1 7 .tide .accepted
    a.id ≠ b.id ∧ a.queue ≠ b.queue ∧ a.cls = .control ∧ b.cls ≠ .control ∧ hub.disp.tideWait < 15 := by decide +kernel
def hubCmd (c : Cmd) : State := { hubRun with disp := { hubRun.disp with cmds := [c] } }

/-! Commands of the hub. -/

theorem witness_ControlCommandResults : let c := cmdOne nopHeader [] 4 3 .control .admitted
    c.start = none ∧ ({ c with start := some 7 } : Cmd).released = false ∧ (hubCmd c).time.msgOrder ≤ c.order ∧ (hubCmd c).hubOn = true ∧ hdrIrq c.hdr = false ∧ (hubCmd c).mayComplete c = true ∧
    ({ hubCmd c with queues := [] } : State).mayComplete c = false ∧ (hubCmd c).clk.frozen = false ∧ (hubCmd c).queues.sorted = true ∧
    (∀ e ∈ (hubCmd c).queues, e.1 < 1024) := by decide +kernel
/-- A QCONFIG of 32 bytes, TAKEOVER with the other port down for 100 ms and 99 ms, a time message, a schedule just in time. -/
theorem witness_ControlCommandResults_forms : hdrOpcode (header 0x10 0 3 1 0 0 32 0x1000 0 []) = 0x10 ∧
    ({ hub with clk := { Clock.reset with hc := 1800000 * 100 } } : State).msSince 0 = 100 ∧
    ({ hub with clk := { Clock.reset with hc := 1800000 * 100 - 1 } } : State).msSince 0 = 99 ∧ hub.disp.downms.toNat = 100 ∧
    (hub.pport 1).up = false ∧ (hub.pport 1).st ≠ 2 ∧ timeBad [1, 5, 9, 0] 32 = false ∧ timeBad [3, 5, 9, 0] 32 = true ∧
    (100 : Word64).toNat + 2048 ≤ 2148 ∧ hub.stops.st ≠ 2 := by decide +kernel
theorem witness_ControlCommandResults_report : let c := cmdOne (header 0x15 0 3 1 0 0 32 0x1000 0 []) [] 4 3 .control .building
    (hubCmd c).dispOn = true ∧ hdrIrq c.hdr = false ∧ (hubCmd c).mayComplete c = true ∧ hdrRlenMax c.hdr = 0 := by decide +kernel
def runCmd (stage : CmdStage) : Cmd := { cmdOne runHeader [] 4 3 .comet stage with deadline := some 5000, slot := some ⟨5, 0x10000, 0x10000⟩ }
theorem witness_RunResults : let c := runCmd .admitted
    let s := hubCmd c
    s.dispOn = true ∧ hdrOpcode c.hdr = 1 ∧ s.groupNo c = 0 ∧ (s.group 0).down = false ∧ (s.group 0).formed = true ∧
    (∀ m ∈ (s.group 0).orbit, s.ringsAt m < 4 ∧ s.testOverdue m = false) ∧ c.lateAt 4999 = false ∧ c.lateAt 5000 = true ∧
    s.mayComplete c = true ∧ hdrIrq c.hdr = false ∧ c.start = none := by decide +kernel
/-- Both ways that a RUN with START and deadline can be due, and one whose deadline comes first. -/
theorem witness_RunResults_due : let c : Cmd := { runCmd .admitted with start := some 4000 }
    c.start = some 4000 ∧ c.released = false ∧ (∀ d, c.deadline = some d → d ≤ 4500 → 4000 ≤ d) ∧ c.lateAt 4500 = false ∧
    ({ c with start := some 5000 } : Cmd).lateAt 5000 = true ∧ ({ c with start := some 6000 } : Cmd).lateAt 6000 = true := by
  refine ⟨rfl, rfl, ?_, by decide, by decide, by decide⟩
  rintro d ⟨⟩ h
  omega
theorem witness_RunResults_ends : let c : Cmd :=
      { runCmd .sent with members := [5, 6], later := [6], ended := [(6, .kend 0 none 1), (5, .kend 32 (some 2) 4)] }
    c.later ≠ [] ∧ (∀ m ∈ c.members, ∃ e ∈ c.ended, e.1 = m) ∧ (c.ended.map Prod.fst).Nodup ∧ (hubCmd c).hubRecs = [] ∧
    c.slot.map Slot.leader = some 5 ∧ ((hubCmd c).cell 5).slice.bad = [] ∧ (32 : Word64).getLsbD 63 = false ∧
    (let d : Cmd := { c with ended := [(5, .aborted 8), (6, .kend 0 none 3)] }
     d.ended.map Prod.fst = d.members ∧ ∀ e ∈ d.ended, 3 ≤ e.2.floor) := by decide +kernel
theorem witness_RunResults_reports : let s := (hubCmd { runCmd .sent with members := [5, 6] }).updCell 5 fun c =>
      { c with out := [.ended 4 0 none 0, .aborted (some 4) 5 2] }
    (s.cell 5).out.head? = some (.ended 4 0 none 0) ∧ s.dispOn = true ∧ (s.cell 6).run = none := by decide +kernel
def ringOne : Ring :=
  { cmd := 4, kernel := 2, queue := 3, cls := .comet, port := 0, gen := 1, seq := 0, entry := 0x100040, sp := 0x2000, args := [1, 2],
    restart := 0, seed := 0x12345678 }
theorem witness_LaunchAndEndResults : hub.dispOn = true ∧ hub.cellDown 5 = false ∧ hub.live 5 = true ∧ (hub.cell 5).pil.mode = .idle ∧
    (hub.cell 5).id.selfTest = none ∧ ((withCell runCell).cell 5).run.map Running.cmd = some 4 := by decide +kernel
/-- R60: the seed of cell 5, kernel 2. -/
theorem test_launch_seed : let s := hub.updCell 5 fun c => { c with rings := [ringOne] }
    ((after (execKernelLaunch 5 s)).cell 5).fp.srv = 0x12345678 ^^^ 0x00020002 ^^^ 0x05050505 ∧
    ((after (execKernelLaunch 5 s)).cell 5).pil.readS 7 = 2 := by decide +kernel

/-! Ports, time, optics, pages, HBM. -/

theorem witness_PortResults : hub.dispOn = true ∧ (hub.pport 0).up = true ∧ (hub.pport 1).up = false ∧ (hub.pport 1).perst = false ∧
    hub.pins.scanen = false ∧ hub.barOpen 0 = true ∧ (0x13040 : Word32).getLsbD 16 = true ∧
    (let v : Word32 := 0x13040; v.toNat / 256 % 256 ≤ min (v.toNat % 256) 0x32 ∧ 0x20 ≤ min (v.toNat % 256) 0x32) ∧
    min ((0x12F1F : Word32).toNat % 256) 0x32 < 0x20 := by decide +kernel
theorem witness_TimeResults : hub.hubOn = true ∧ hub.clk.phase < 128 ∧ hub.clk.d ≠ 0 ∧ hub.cells = [] ∧ hub.opt.ports = [] ∧ hub.time.frac < 2 ^ 32 ∧
    (TimeChange.mk 64 5 true false none 0).due > hub.clk.hc ∧
    (let t : TimeBase := { TimeBase.reset with mode := 2, ptmAt := some 0 }
     (∀ h ∈ t.ptmAt, h + t.period.toNat * 1800000 ≤ 18000000) ∧ ¬ ∀ h ∈ t.ptmAt, h + t.period.toNat * 1800000 ≤ 17999999) ∧
    (PtmTimes.mk 5000 100 900).roundTrip.toNat ≤ 10000 ∧ 10000 < (PtmTimes.mk 5000 100 10001).roundTrip.toNat ∧ ({ TimeBase.reset with mode := 1 } : TimeBase).edgeAt + 2700000000 ≤ 2700000000 ∧
    (hub.pport 0).up = true ∧ (TimeChange.mk 0 5 true false none 0).due ≤ hub.clk.hc ∧
    ({ TimeBase.reset with track := 2 ^ 40 } : TimeBase).track.toNat / 2 ^ 40 ≠ TimeBase.reset.wrapSeen ∧
    ({ TimeBase.reset with track := 2 ^ 30 } : TimeBase).track.toNat / 2 ^ 30 ≠ TimeBase.reset.secSeen := by decide +kernel
/-- A linked port 2 facing module 9. -/
def optPort : OptPort :=
  { OptPort.reset with linked := true, cfg := { PortCfg.reset with used := true, peerRole := 2, peerPort := 1, peerMod := 9 }, peermod := 9 }
def optState (x : OptPort) : State :=
  { hub with opt := { hub.opt with ports := [(2, x)], modnum := 4, chainid := 77, role := 1 }, time := { hub.time with track := 100000 } }
def hello : Nat := 0x30 + 0x40 * 2 ^ 64 + 0x30 * 2 ^ 72 + 77 * 2 ^ 80 + 9 * 2 ^ 112 + 2 * 2 ^ 128 + 1 * 2 ^ 130
theorem witness_OpticalResults : (optState optPort).dispOn = true ∧ optPort.linked = true ∧ optPort.retrain = none ∧ optPort.cls = [] ∧
    optPort.replay = [] ∧ optPort.up = false ∧ hello % 256 = 0x30 ∧ hello / 2 ^ 80 % 2 ^ 32 = 77 ∧ hello / 2 ^ 112 % 2 ^ 16 = 9 ∧
    dataFlits hello = some 0 ∧ optPort.expect = 0 ∧ (BitVec.ofNat 80 (2 ^ 40)).extractLsb' 0 12 = optPort.expect ∧
    laneCount 0xFF = 8 ∧ laneCount 0 = 0 ∧ (optState optPort).opt.spares.get 4 1 = 4 ∧
    ((optState optPort).opt.eph.get .reset 2).at' + 1800000000 ≤ 1800000000 := by decide +kernel
theorem test_hello_agrees : let s := optState { optPort with rx := [{ head := BitVec.ofNat 512 hello, data := [] }] }
    ((after (execHello 2 s)).opt.port 2).formed = some 0x32 := by decide +kernel
/-- A page store of ten pages, port 3 toward module 9 held by its retraining. -/
def pageState (rx : List OptPkt) (ops : List PageOp) : State :=
  let l := [(2, { optPort with up := true, rx := rx }), (3, { OptPort.reset with linked := true, up := true, retrain := some 4 })]
  { hub with opt := { hub.opt with ports := l, modnum := 4, role := 3, fwd := [(9, ⟨3, true⟩)], count := 10, first := 1, ops := ops } }
def pageOp : PageOp := ⟨5, 7, 0x100, false, 1, 9, 2, 0x1000000000 + 7 * 0x10000000 + 0x10000, 0⟩
theorem witness_PageResults : let s := pageState [] []
    s.dispOn = true ∧ (s.opt.port 3).up = true ∧ (s.opt.port 3).retrain ≠ none ∧ s.hbm.mem.bad = [] ∧ s.hbm.mem.soft = [] ∧ s.hbm.onDie = [] ∧ s.route 9 = some 3 ∧
    s.cellDown 7 = false ∧ s.bufferPlace 7 pageOp.local' = some (.slice 7 0x10000) := by decide +kernel
theorem witness_PageResults_soft : ∀ g, ((pageState [] []).cell g).slice.soft = [] := fun _ => rfl
theorem witness_PageResults_fence : ∀ a, (pageState [] []).hbm.fencedAt a = false := by
  intro a
  unfold HbmSys.fencedAt
  split <;> rfl
/-- A posted GET of page 2 of module 9 by cell 7, in its slice at 0x100. -/
def postState : State :=
  let w := (Mem.empty.writeN 0x100 8 (1 + 1 * 16 + 9 * 2 ^ 16 + 2 * 2 ^ 32)).writeN 0x108 8 (0x1000000000 + 7 * 0x10000000 + 0x10000)
  let s := (pageState [] []).updCell 7 fun c => { c with slice := w }
  { s with opt := { s.opt with posts := [⟨7, 0x1000000000 + 7 * 0x10000000 + 0x100, 3⟩], role := 1 } }
theorem witness_PageResults_post : (∃ x ∈ postState.opt.posts.head?, ∃ y ∈ postState.postDesc x,
      y.2.getD 0 0 % 16 = 1 ∧ postState.postResult x y.2 y.1 = 0 ∧ postState.route (y.2.getD 0 0 / 2 ^ 16 % 2 ^ 16) = some 3) ∧
    postState.opt.ops = [] := by
  refine ⟨⟨_, rfl, _, rfl, ?_⟩, rfl⟩
  decide +kernel
theorem witness_HbmResults : hub.dispOn = true ∧ (hub.hbm.chanOf (3000 * hbmUnit)).isSome = true ∧ 0 + 1 < hub.hbm.ceth.toNat ∧
    hub.boot.ready = true ∧ hub.boot.busy = none ∧ hub.cells = [] ∧ hub.hbm.mem.soft = [] ∧ hub.hbm.mem.bad = [] ∧ hub.hbm.onDie = [] ∧
    (hub.hbm.chan 3).ue.toNat + 1 < ({ hub.hbm with ueth := 2 } : HbmSys).ueth.toNat ∧ (hub.cell 5).ls.soft = [] ∧ (hub.cell 5).ls.bad = [] ∧
    ({ Chan.reset with trained := true, corrNext := some (-3) } : Chan).fenced = false := by decide +kernel
/-- The interleave example: the Atlas's list, nothing mapped out, and with 8 and 133 mapped out. -/
theorem test_interleave : let l := (List.range 256).map fun i => BitVec.ofNat 8 (32 * (i % 8) + i / 8)
    ({ HbmSys.reset with live := 256, ilv := l } : HbmSys).chanOf 0x123456 = some (200, 0x1256) ∧
    ({ HbmSys.reset with live := 254, ilv := l.filter fun p => p != 8 && p != 133 } : HbmSys).chanOf 0x123456 = some (141, 0x1256) := by
  decide +kernel
/-- The four deadlines read at arrival. -/
theorem test_deadlines : fullTime 0x3A2B1C00 0x0B3A297A40 = 0x0B3A2B1C00 ∧ fullTime 0x00008000 0x0BFFFFF000 = 0x0C00008000 ∧
    fullTime 0xFFFFF800 0x0C00001000 = 0x0BFFFFF800 ∧ fullTime 0x80000000 0x0C00000000 = 0x0B80000000 := by decide +kernel

/-! Failures, start, service, observation. -/

def errOne (action : Byte) : ErrRec :=
  { mech := 5, action := action, cls := 2, cell := some 5, engine := 8, code := 0, unit := 5, addr := 0x123, cmd := some 4 }
theorem witness_FailureResults : hub.dispOn = true ∧ (errOne 1).action ≠ 0 ∧ (cmdOne nopHeader [] 4 3 .comet .sent).touched = none ∧
    ({ runCmd .sent with members := [5, 6] } : Cmd).over = false ∧ (hub.cell 5).id.inReset = none ∧ (hub.cell 5).id.admitted = false ∧
    hub.disp.cmds = [] ∧ hub.imagesFor 5 = [] ∧ hub.flash.streamFail hub.boot.slot (hub.imagesFor 5) = none ∧
    (let s := (hub.updCell 5 fun c => { c with id := { c.id with dog := [(0x20, 0)] } })
     ({ s with clk := { Clock.reset with hc := 0x1B7740 } } : State).dogBites 5 = true ∧
       ({ s with clk := { Clock.reset with hc := 0x1B773F } } : State).dogBites 5 = false) ∧
    (hub.updCell 5 fun c => { c with id := { c.id with present := true } }).testable 5 = true := by decide +kernel
/-- A record of the log that the next one repeats. -/
theorem witness_FailureResults_merge :
    let s := after (execErrorRecord (.cell 5) (hub.updCell 5 fun c => { c with out := [.record (errOne 0), .record (errOne 0)] }))
    (∀ e ∈ s.safe.log, (errOne 0).repeats e.2 = true ∧ 2 < e.2.length) ∧ s.safe.log.length = 1 ∧ (s.cell 5).out = [.record (errOne 0)] ∧
    s.clk.hc ≤ s.safe.logHc.get 0 0 + 1800000 := by decide +kernel
theorem witness_StartResults : State.reset.clk.powered = true ∧ ({ Clock.reset with powered := false } : Clock).powered = false ∧
    State.reset.hubOn = true ∧ State.reset.hbm.healthWait = [] ∧ State.reset.boot.phase = 0 ∧ State.reset.pins.scanen = false ∧
    State.reset.flash.streamFail State.reset.boot.slot ((State.reset.flash.sects State.reset.boot.slot).filter fun x => x.type == 1) = none ∧
    hub.hbmDestFail = none ∧ dwAt (hub.flash.section' hub.boot.slot 3) 3 / 2 ^ 32 % 2 ^ 9 ≤ hub.hbm.live.toNat ∧
    (hub.flashSrc 0x1000000000).isSome = true ∧ hub.flashSrc 0x1000000001 = none := by decide +kernel
/-- From reset: ROM passes, and the empty flash fails VERIFY on MAGIC: the start begins again with the other slot. -/
theorem test_start_on_empty_flash : let s := after (execRom false State.reset)
    s.boot.phase = 1 ∧ (after (execVerify s)).boot.fallback = true ∧ (after (execVerify s)).boot.reason = 2 ∧
    (after (execVerify s)).boot.useSlot = some true := by decide +kernel
theorem witness_ServiceResults : hub.hubOn = true ∧ hub.gov.windowAt + 1800 ≤ 1800 ∧ hub.clk.powered = true ∧ hub.clk.stopped = false ∧
    timeBad [1, 5, 9, 0] 32 = false ∧ hub.time.msgOrder ≤ hub.disp.nextOrder ∧ hub.boot.fwUp = false ∧ ({ Boot.reset with phase := 15 } : Boot).phase = 15 := by decide +kernel
/-- The governor's example: 50 V, 88 °C, an estimate of 2,870 + 850. -/
theorem test_governor : (after (execGovernorWindow 176 50000 2870 850 { hub with clk := { Clock.reset with hc := 1800 } })).clk.d = 73 := by
  decide +kernel
theorem witness_ObservationResults : hub.writes (.host 0) = true ∧ (withCell superCell).writes (.pilot 5) = true ∧ hub.stops.survey = none ∧
    hub.stops.st = 0 ∧ hub.obs.window = hub.clk.hc / 1024 ∧ hub.obs.spent < 5242 ∧ hub.obs.lost = 0 ∧ hub.obs.prio = [] ∧
    ([1, 2, 3, 4] : List Word64).length = 4 ∧ hub.hbm.fencedAt (hub.obs.area + 32 * (0 % 32768)) = false ∧ hub.obs.queue.length < 1024 ∧
    hub.hubOn = true ∧ place hub.hbmBytes 0 (0x10000030000) = .hbm 0x30000 ∧ place hub.hbmBytes 0 0x40000 = .hole := by decide +kernel
theorem witness_ObservationResults_rings : ∀ q, (State.reset.queue q).ring = [] := fun _ => rfl

/-! Further clauses of the statements, at their boundaries. -/

/-- Bytes in the refuge, and reaching into it; the first of a hole; the far end of the store; a register that user code has and one that it has
not; the window's last doubleword. -/
def placesCell (pl : Bool) : Cell :=
  { userCell with exc := { userCell.exc with pl := pl, ceil := pl }
                  pil := { userPilot with s := [(1, 0x3FFFF), (2, 0x3EFFF), (3, 0x40000), (4, 0x3FFFE), (5, 0xFFFF8108), (6, 0xFFFF8004), (7, 0x13FFF8),
                                                (8, 0x1001)] } }
def memU (l : List (BitVec 5)) (w : List (BitVec 5)) : Uses := { s := l, w := w, dst := none, lat := 1, unitFree := 0, mem := true }
theorem witness_ForbiddenAccessFaults_forms : let s := withCell (placesCell false)
    let t := withCell (placesCell true)
    (∀ r ∈ ([1, 2, 3, 5, 6, 8] : List (BitVec 5)), s.canIssue 5 (loadU r 9 true) = true ∧
      s.loadPort 5 (loadU r 9 false) ((s.cell 5).pil.readS r).toNat 8 ≤ 100) ∧
    (∀ r ∈ ([1, 2, 3, 7] : List (BitVec 5)), s.canIssue 5 (memU [r, 9] []) = true ∧ s.canIssue 5 (memU [r] [9]) = true ∧
      s.memPort 5 ((s.cell 5).pil.readS r).toNat ≤ 100) ∧
    t.canIssue 5 (loadU 4 9 false) = true ∧ t.canIssue 5 (memU [4, 9] []) = true ∧ (t.cell 5).exc.pl = true ∧
    0x3FFFE < 0x40000 ∧ 0x40000 < 0x3FFFE + 4 ∧ 0x3EFFF < 0x3F000 ∧ 0x3F000 < 0x3EFFF + 2 ∧ 0x40000 + 16 ≤ 0x100000 ∧ 0x1001 % 8 ≠ 0 := by
  decide +kernel
/-- The store of a STREL of module scope after its one cc. -/
theorem witness_ForbiddenAccessFaults_strel : let s := withCell (placesCell false)
    let s1 := s.waitFor 5 101 4
    s.canIssue 5 (memU [3, 9] []) = true ∧ (s.cell 5).settledAt ≤ 101 ∧ s.memPort 5 0x40000 ≤ 101 ∧ s1.fetches 5 = true ∧ s1.clk.cc = 101 ∧
    (s1.cell 5).pil.remotes = [] ∧ (s1.cell 5).exc.pl = false ∧ s1.putsOut 5 = false ∧
    (∀ r ∈ ([1, 3, 7, 8] : List (BitVec 5)), (s1.cell 5).pil.readS r = (s.cell 5).pil.readS r) := by decide +kernel

/-- In binary16: 2⁰; a value above 2¹² by less than a unit of 2⁻¹²; half of the least subnormal; the largest value and beyond. -/
theorem witness_ScalarFloatResults_rounding : Elem.isFloat .fp16 = true ∧ (0 : ℚ) < 1 ∧ ((1 : Nat) : ℚ) * 2 ^ (0 : Int) ≤ 1 ∧
    (1 : ℚ) < (((1 : Nat) : ℚ) + 1) * 2 ^ (0 : Int) ∧ 2 ^ (Elem.mbits .fp16 + 2) ≤ 4096 ∧
    (let v : ℚ := 4096 * 2 ^ (-12 : Int) + 2 ^ (-14 : Int)
     ((4096 : Nat) : ℚ) * 2 ^ (-12 : Int) ≤ v ∧ v < (((4096 : Nat) : ℚ) + 1) * 2 ^ (-12 : Int) ∧ v ≠ ((4096 : Nat) : ℚ) * 2 ^ (-12 : Int)) ∧
    Elem.maxFinite .fp16 % 2 = 1 ∧ Elem.maxFinite .e4m3 % 2 = 0 ∧ (∀ d : Nat, Rnd.rne ≠ .sr d) := by
  refine ⟨rfl, by norm_num, by norm_num, by norm_num, by decide, ⟨by norm_num, by norm_num, by norm_num⟩, by decide, by decide, ?_⟩
  intro d h
  cases h

theorem witness_ReservedEncodingsTakeIllegal_forms :
    user.canIssue 5 { usesS [1, 3] 9 34 with unitFree := (user.cell 5).pil.intDiv } = true ∧
    user.canIssue 5 { usesS [1, 3] 9 18 with unitFree := (user.cell 5).pil.intDiv } = true ∧ user.canIssue 5 (usesS [1, 3, 9] 9 1) = true ∧
    (∀ l ∈ [2, 3, 4, 5], user.canIssue 5 (usesW [1, 2, 3] true 9 l) = true) ∧
    (∀ l ∈ [9, 14, 16, 24, 30], user.canIssue 5 { usesW [1, 2] true 9 l with unitFree := (user.cell 5).pil.fpDiv } = true) ∧
    user.canIssue 5 { Uses.none' with mem := true } = true ∧ user.canIssue 5 { Uses.none' with s := [1, 9], mem := true } = true ∧
    user.canIssue 5 { Uses.none' with s := [3, 4, 9], mem := true, dst := some (false, 9) } = true ∧
    user.canIssue 5 { Uses.none' with s := [3, 4], w := [2, 3], mem := true, dst := some (false, 9) } = true ∧
    user.canIssue 5 { Uses.none' with s := (List.range 32).map (BitVec.ofNat 5) } = true ∧
    user.canIssue 5 { usesS [1] 9 1 with mem := true } = true := by decide +kernel
/-- An element number past the last of v, a length past that of a VLD, and a PART past the last of FP32 to E4M3. -/
theorem witness_ReservedEncodingsTakeIllegal_vector :
    (∀ t ∈ [(0 : BitVec 4), 1, 0xA], (vecCell t 257).vec.vt.toNat ∈ [0, 1, 2, 3, 0xA, 0xB, 0xD, 0xE] ∧
      (withCell (vecCell t 257)).canIssue 5 Uses.none' = true ∧ (withCell (vecCell t 257)).canIssue 5 { Uses.none' with w := [2] } = true ∧
      (withCell (vecCell t 257)).canIssue 5 { Uses.none' with s := [2] } = true ∧
      (withCell (vecCell t 257)).canIssue 5 { Uses.none' with s := [2, 3], mem := true } = true ∧
      (withCell (vecCell t 257)).canIssue 5 (usesS [1] 9 3) = true) ∧
    8192 / (vecCell 1 257).vec.type.width ≤ ((vecCell 1 257).pil.readS 4).toNat ∧ 256 < (vecCell 1 257).vec.vl ∧
    Elem.ofCode 1 = some .fp32 ∧ Elem.ofCode 5 = some .e4m3 ∧ (32 + 8 - 1) / 8 ≤ 4 := by decide +kernel

/-- A range of 0x800 bytes (s5) for ACQR, and none. -/
theorem witness_OrderingResults_ranged : user.canIssue 5 (memU [4, 5] []) = true ∧ (user.cell 5).pil.readS 5 ≠ 0 ∧ (user.cell 5).pil.readS 9 = 0 ∧
    user.canIssue 5 (memU [4, 9] []) = true ∧ (user.cell 5).pil.loadsDone ≤ 100 := by decide +kernel
/-- A remote store that is out, and a PUT of the cell that has no STATUS. -/
theorem witness_OrderingResults_waits :
    (let c : Cell := { userCell with pil := { userPilot with remotes := [remoteOne false false none] } }
     (withCell c).canIssue 5 { Uses.none' with mem := true } = true ∧ (c.settledAt ≤ 100) ∧ c.pil.remotes ≠ [] ∧
      (withCell c).canIssue 5 (memU [4, 9] []) = true ∧ ((withCell c).waitFor 5 102 4).clk.cc = 102 ∧ ((withCell c).waitFor 5 102 4).fetches 5 = true) ∧
    (let op : PageOp := ⟨5, 5, 0x100, true, 1, 9, 2, 0, 0⟩
     let s := { user with opt := { user.opt with ops := [op] } }
     s.putsOut 5 = true ∧ s.canIssue 5 { Uses.none' with mem := true } = true ∧ (s.waitFor 5 102 4).putsOut 5 = true) := by decide +kernel

theorem witness_RemoteAccessResults_refused :
    (let s := remoteState (remoteOne false false none)
     let t : State := { s with hbm := { s.hbm with ilv := (List.range 256).map (BitVec.ofNat 8), chans := [(1, { Chan.reset with fenced := true })] } }
     t.hbm.fencedAt 0x100 = true ∧ place t.hbmBytes 5 0x10000000100 = .hbm 0x100 ∧ t.live 5 = true ∧ t.cellDown 5 = false) ∧
    (let r := remoteOne true true none
     (remoteState r).live 5 = true ∧ r.mate = none ∧ r.dest ≠ none ∧ r.acquire = false ∧ r.back ≤ 100 ∧ 0 < (remoteState r).clk.cc ∧
      (∀ w ∈ ((remoteState r).cell 5).pil.wbs, 100 ≤ w.due)) ∧
    (let s := { remoteState (remoteOne false false none) with xbar := { Xbar.reset with owed := [(.cell 5, 3)] } }
     (Endpoint.cell 5, 3) ∈ s.xbar.owed ∧ s.hubRecs = [] ∧ s.live 5 = true) := by decide +kernel

/-- Packets that a waiting VORB of each role accepts, going on and on the return lap; one of another tag. -/
theorem witness_VectorQueueAndOrbitResults_packet :
    let pkt (rg : BitVec 1) (src : CellId) (tag : BitVec 16) : OrbitPkt := { orbitPkt 0 with rg := rg.setWidth _, srcg := src, tag := tag }
    let cell (role : BitVec 2) (lap ret : Bool) : Cell :=
      { vecOrbit with vec := { vecOrbit.vec with vorb := some { waiting with role := role, onReturn := lap, ret := ret } } }
    (∀ x ∈ ([(1, true), (2, false), (2, true), (3, false)] : List (BitVec 2 × Bool)), ∀ ret ∈ [false, true],
      let c := cell x.1 x.2 ret
      let k := pkt (if x.2 then 1 else 0) (if x.2 then 6 else 4) 2
      c.vec.vorb = some { waiting with role := x.1, onReturn := x.2, ret := ret } ∧ (withCell c).live 5 = true ∧ c.vec.inbox = [] ∧
      c.arr.orbit.nextX = false ∧ c.arr.orbit.prevX = false ∧ k.dstg = 5 ∧ k.rows = 0 ∧ k.tag = waiting.tag ∧
      k.rg = (if x.2 then 1 else 0) ∧ k.n.toNat = waiting.n ∧ k.kind = (if waiting.int then 2 else 1) ∧
      k.srcg = (if x.2 then c.arr.orbit.next else c.arr.orbit.prev)) ∧
    (pkt 0 4 3).tag ≠ waiting.tag ∧ (withCell (cell 2 false true)).canIssue 5 Uses.none' = false := by decide +kernel

/-- Behind a pass that commits; and the same at user level. -/
theorem witness_PassControlResults_abort : let q := passOne .committing 1 0 []
    let p := passOne .stepping 0 20 []
    let c : Cell := { superCell with arr := { Arr.reset with passes := [q, p] } }
    c.arr.passes = [q] ++ p :: [] ∧ (∀ x ∈ [q], x.stage = .committing) ∧ p.stage ≠ .committing ∧ (withCell c).live 5 = true ∧ c.exc.pl = true ∧
    (withCell (passCell p)).running 5 = true ∧ (passCell p).exc.pl = false := by decide +kernel

/-- A row of the command's own, of each kind of home. -/
def movOne (op len : Nat) (src dst : Nat) (rest : List Nat) : MovCmd :=
  { copyOne false with dw := [op + len * 2 ^ 32, src, dst] ++ rest }
def movState (m : MovCmd) : State := { withCell (copyCell m) with hbm := { HbmSys.reset with live := 256 } }
/-- From HBM to another cell's slice, both ends far; two rows of a 2-D fill whose stride is negative; a length of 0. -/
theorem witness_MoverResults_homes :
    (let m := movOne 0 16 0x10000000100 0x1060000100 [0]
     (movState m).live 5 = true ∧ m.op = 0 ∧ m.len = 16 ∧ m.rows = 0 ∧ m.user = false ∧ m.bad = false ∧ m.formatBad = false ∧
       place (movState m).hbmBytes 5 0x10000000100 = .hbm 0x100 ∧ place (movState m).hbmBytes 5 0x1000000010F = .hbm 0x10F ∧
       place (movState m).hbmBytes 5 0x1060000100 = .slice 6 0x100 ∧ place (movState m).hbmBytes 5 0x106000010F = .slice 6 0x10F ∧
       (movState m).hbm.mem.bad = [] ∧ (movState m).hbm.mem.soft = [] ∧ ((movState m).hbm.cache (tileOf 5)).lines = [] ∧
       ((movState m).hbm.cache (tileOf 5)).fills = [] ∧ 0 < (movState m).clk.d.toNat) ∧
    (let m := movOne 3 8 7 0x1020 [2 + (2 ^ 24 - 0x20) * 2 ^ 40]
     m.op = 3 ∧ m.len = 8 ∧ m.formatBad = false ∧ m.rows = 2 ∧ m.dstr = -0x20) ∧
    (let m := movOne 0 0 0x1000 0x1800 [0]
     m.len * 1 = 0 ∧ m.op < 4) := by decide +kernel
theorem witness_MoverResults_quiet : let s := movState (movOne 0 16 0x10000000100 0x1060000100 [0])
    ∀ h, (s.cell h).stores = [] ∧ (s.cell h).ls.bad = [] ∧ (s.cell h).win.bad = [] ∧ (s.cell h).slice.bad = [] ∧ s.cellDown h = false := by
  decide +kernel
theorem witness_MoverResults_fence : ∀ o, (movState (movOne 0 16 0x10000000100 0x1060000100 [0])).hbm.fencedAt o = false := by
  intro o
  unfold HbmSys.fencedAt
  split <;> rfl
/-- A descriptor that cannot be read; a reserved code; a hole as the source; two source rows in two regions; the refuge
for a user command; and an error record that already stands. -/
theorem witness_MoverResults_errors : ({ copyOne false with bad := true } : MovCmd).bad = true ∧ 4 ≤ (movOne 4 16 0x1000 0x1800 [0]).op ∧
    (movOne 0 16 0x40000 0x1800 [0]).src = 0x40000 ∧ place user.hbmBytes 5 0x40000 = .hole ∧ place user.hbmBytes 5 0x3FFFF = .ls 0x3FFFF ∧
    (let m := movOne 2 16 0x3FFF0 0x1800 [2 + 0xC0010 * 2 ^ 16]
     m.op = 2 ∧ m.rows = 2 ∧ m.sstr = 0xC0010 ∧ place user.hbmBytes 5 (0x3FFF0 + 0xC0010) = .win 0) ∧
    ({ movOne 0 16 0x3F000 0x1800 [0] with user := true } : MovCmd).user = true ∧ 0x3F000 < 0x3F000 + 16 ∧
    place user.hbmBytes 5 0x100000 = .win 0 ∧
    ({ copyCell (copyOne false) with mov := { (copyCell (copyOne false)).mov with valid := true } } : Cell).mov.valid = true := by decide +kernel
/-- A command of chain scope whose cell has a PUT without STATUS, and without one. -/
theorem witness_MoverResults_chain : let m : MovCmd := { copyOne true with dw := [16 * 2 ^ 32 + 3 * 2 ^ 4, 0x1000, 0x1800, 0] }
    let op : PageOp := ⟨5, 5, 0x100, true, 1, 9, 2, 0, 0⟩
    m.scope = 3 ∧ m.started = true ∧ m.from' ≤ 100 ∧ (withCell (copyCell m)).putsOut 5 = false ∧
    ({ withCell (copyCell m) with opt := { State.reset.opt with ops := [op] } } : State).putsOut 5 = true := by decide +kernel

/-- Own and remote reads of CELL_MBOX_HEAD, at supervisor level; the request as it is performed. -/
theorem witness_MailboxResults_reads : let u (lat : Nat) : Uses := { usesS [] 9 lat with mem := true }
    (withCell superCell).live 5 = true ∧ superCell.exc.pl = true ∧ superCell.pil.remotes = [] ∧
    (∀ l ∈ [0, 4], superCell.pil.remoteHolds (u l) = false ∧ superCell.pil.ready (u l) 100 ≤ 100) ∧ superCell.pil.hold = false ∧
    ((withCell superCell).until 102).clk.cc = 100 + 2 ∧
    (let x : Remote := { remoteOne true false none with addr := 0xF0800108 + 6 * 0x8000, len := 8 }
     x.addr = 0xF0800108 + (6 : CellId).toNat * 0x8000 ∧ x.performed = false ∧ x.lost = false ∧ x.cc ≤ 100) := by decide +kernel

/-- On the way into the hub at the edge of cell `r`, and from the other half out of the crossbar. -/
theorem witness_FabricResults_hub : let f : Flit := { flitOne with src := .cell 0, dst := .cell 255 }
    let r := hubRouter 0
    let k := 8 * 4 + channelOf f
    let s := hub.updCell r fun c => { c with router := { Router.reset with wire := [(k, [f])] } }
    let t : State := { hub with xbar := { Xbar.reset with bufs := [(8 * r.toNat + channelOf f, [f])] } }
    viaHub f = true ∧ f.src ≠ .hub ∧ atHub r .edge f = true ∧ ((s.cell r).router.wire.get [] k).head? = some f ∧
    halfOf 0 ≠ halfOf 255 ∧ hubRouter 255 ≠ r ∧ (t.xbar.bufs.get [] (8 * r.toNat + channelOf f)).head? = some f ∧
    ((t.cell (hubRouter 255)).router.buf 4 (channelOf f)).length < 16 := by decide +kernel
/-- The one flit of a router, for the output that its destination gives. -/
theorem witness_FabricResults_sends : let v := channelOf flitOne
    let x : Router := { Router.reset with bufs := [(8 * 5 + v, [flitOne])] }
    let o := dirNat (routeDir 5 flitOne.dst)
    x.buf 5 v = [flitOne] ∧ (∀ j < 6, ∀ w < 6, (j, w) ≠ (5, v) → x.buf j w = []) ∧ x.inUse o v < linkDepth o ∧ o = dirNat .east := by decide +kernel

/-- A packet without a command: a RUN and others; a TAKEOVER's answer while frozen. -/
theorem witness_ControlCommandResults_frozen : let c := cmdOne nopHeader [] 4 3 .control .admitted
    let s : State := { hubCmd c with clk := { (hubCmd c).clk with frozen := true } }
    s.hubOn = true ∧ c.answer = none ∧ s.mayComplete c = true ∧ s.clk.frozen = true ∧ s.disp.portDue = [] ∧ s.stops.cut = none := by decide +kernel
theorem witness_ControlCommandResults_touched : let c : Cmd := { cmdOne (header 0x15 0 3 1 0 0 32 0x1000 0 []) [] 4 3 .control .building with touched := some 3 }
    (hubCmd c).dispOn = true ∧ c.touched = some 3 ∧ (hubCmd c).mayComplete c = true := by decide +kernel

theorem witness_RunResults_acks : let c : Cmd := { runCmd .sent with members := [5, 6], later := [6] }
    let s : State := { hubCmd c with disp := { (hubCmd c).disp with acks := [4] } }
    s.disp.acks = [c.id] ∧ s.testOverdue 6 = false ∧ c.answer = none ∧ c.resets = [] ∧
    ({ runCmd .admitted with start := some 6000 } : Cmd).deadline = some 5000 := by decide +kernel

/-- A link that goes in a frozen module, in PHASE 0 and after. -/
theorem witness_PortResults_more : (let s : State := { hub with clk := { hub.clk with frozen := true } }
      s.hubOn = true ∧ s.clk.frozen = true ∧ (s.pport 0).up = true) ∧ hub.boot.phase = 0 ∧
    ({ hub with boot := { hub.boot with phase := 4 } } : State).dispOn = true ∧ ([] : List Cmd).Nodup := by decide +kernel

/-- 64 exchanges of which 63 have come, and 8 of which 7 have; the next reply. -/
def measOf (n : Nat) : Meas := { total := n, sent := [(n - 1, 5)], got := (List.range (n - 1)).map fun i => (i, ((i : Int) * 7) % 5, 100 + i) }
theorem witness_OpticalResults_measure : ∀ n ∈ [8, 64], (measOf n).total ≤ (measOf n).got.length + 1 ∧ (n - 1, (5 : Word64)) ∈ (measOf n).sent ∧
    (∀ e ∈ (measOf n).got, e.1 ≠ n - 1) ∧ ((measOf n).got ++ [(n - 1, (3 : Int), 90)]).length = n := by decide +kernel
theorem witness_OpticalResults_retrain : (let x : OptPort := { optPort with up := true, retrain := some 4, meas := some (measOf 8) }
      x.retrain ≠ none ∧ x.linked = true ∧ x.cls = [] ∧ x.replay = []) ∧
    (let x : OptPort := { optPort with up := true, ucwRun := 16, replay := [⟨1, []⟩] }
     x.retrain = none ∧ 16 ≤ x.ucwRun ∧ x.replay ≠ [] ∧ x.fackAt + 36000 ≤ 36000) := by decide +kernel

/-- 64 operations admitted; an earlier PUT of the page that waits for parts; one whose last part comes. -/
def putOne (n : Nat) : PageServe := ⟨true, 2, 9, 5, 2, 0, (List.range n).map fun i => (i, [])⟩
theorem witness_PageResults_target : (∀ b ∈ List.replicate 64 (putOne 3), b.whole = false) ∧ (List.replicate 64 (putOne 3)).length = 64 ∧
    (putOne 3).page.toNat = 2 ∧ ((putOne 15).parts.set 15 []).length = 16 ∧ ((putOne 14).parts.set 14 []).length = 15 ∧ (putOne 15).put = true ∧
    (pageOp.posted + 1800000 ≤ 1800000) := by decide +kernel
/-- The count that reaches CETH, and an uncorrectable one that reaches UETH. -/
theorem witness_HbmResults_fence : let s : State := { hub with hbm := { hub.hbm with ceth := 1, ueth := 1 } }
    s.dispOn = true ∧ (s.hbm.chanOf (3000 * 64)).isSome = true ∧ s.hbm.ceth.toNat ≤ 0 + 1 ∧ s.hbm.ueth.toNat ≤ min 0xFF (0 + 1) ∧
    (∀ n, (s.hbm.chan n).fenced = false) ∧ s.hbm.mem.soft = [] := by
  refine ⟨by decide +kernel, by decide +kernel, by decide +kernel, by decide +kernel, fun _ => rfl, rfl⟩

/-- A triple fault that waits for the records before it. -/
theorem witness_FailureResults_waits : let c : Cell := { Cell.reset with id := { CellId'.reset with inReset := some 1 }, out := [.record (errOne 0)] }
    c.id.inReset = some (ResetWhy.code .triple) ∧ c.out ≠ [] ∧ c.id.admitted = false := by decide +kernel
/-- A port that trains in PHASE 5, and a flash operation under way in PHASE 8. -/
theorem witness_StartResults_waits :
    (let s : State := { optState optPort with boot := { Boot.reset with phase := 5 } }
     s.optTraining = true ∧ s.hubOn = true) ∧ ({ hub with boot := { Boot.reset with phase := 5 } } : State).optTraining = false ∧
    ({ hub with boot := { Boot.reset with phase := 8, busy := some ⟨1, 3, 0, 0⟩ } } : State).flashBusy = true ∧
    ({ hub with boot := { Boot.reset with phase := 8 } } : State).flashBusy = false := by decide +kernel
/-- A tick that has come, without a Survey, and a release; a Survey that has read all and one at its start. -/
def surveyAt (n : Nat) : SurveyRun := ⟨⟨1, 0, 0, 5, 5, 0, 0, []⟩, none, 0, n, false⟩
theorem witness_ObservationResults_stops : (let s : State := { hub with stops := { hub.stops with st := 1, tick := 7 }, time := { hub.time with track := 7 } }
      s.stops.st = 1 ∧ s.clk.frozen = false ∧ s.clk.phase < 128 ∧ s.clk.d ≠ 0 ∧ s.stops.tick ≤ s.time.track ∧ s.time.changes = []) ∧
    (let s : State := { hub with stops := { hub.stops with st := 2, rel := 5 }, time := { hub.time with track := 7 } }
     s.stops.st = 2 ∧ s.stops.cut = none ∧ s.opt.downDue = [] ∧ s.disp.portDue = [] ∧ s.obs.prio.length < 16 ∧ s.stops.rel ≠ 0 ∧
      s.stops.rel ≤ s.time.track ∧ (s.cell 5).out = []) ∧
    (∀ n ∈ [0, 1609, 1610], (surveyAt n).pos = n) ∧ hub.obs.en = false ∧ hub.cells = [] ∧ hub.opt.ports = [] := by decide +kernel

end Sys2Proof.Tests
end

section
/-! SUPPORT. Proofs about the pilot's counts and permutations (R180, R182): what the model's result functions compute, number by number, and
what a PARSE instruction that nothing holds leaves. -/

namespace Sys2Proof.Machine

/-! Words. -/

theorem toNat_w64_of_lt {n : Nat} (h : n < 2 ^ 64) : (w64 n).toNat = n := by
  rw [w64, BitVec.toNat_ofNat, Nat.mod_eq_of_lt h]

/-- A word's numbered bit is its bit as a number's. -/
theorem bit_toNat (a : Word64) (i : Nat) : bit a.toNat i = a.getLsbD i := by
  rw [bit, BitVec.getLsbD, Nat.testBit_eq_decide_div_mod_eq]
  rfl

/-- Byte `i` of a number: a field of eight bits is a digit to the base 256. -/
theorem bits_byte (v i : Nat) : bits v (8 * i) 8 = v / 256 ^ i % 256 := by
  simp [bits, Nat.pow_mul]

/-- A word of eight bytes keeps the low eight bytes of a number. -/
theorem byte_w64 (n : Nat) {i : Nat} (h : i < 8) : (w64 n).toNat / 256 ^ i % 256 = n / 256 ^ i % 256 := by
  have hsplit : 2 ^ 64 = 256 ^ i * 256 ^ (8 - i) := by
    rw [← Nat.pow_add, Nat.add_sub_cancel' h.le]
    rfl
  have hdvd : 256 ∣ 256 ^ (8 - i) := dvd_pow_self _ (by omega)
  rw [w64, BitVec.toNat_ofNat, hsplit, Nat.mod_mul_right_div_self, Nat.mod_mod_of_dvd _ hdvd]

/-! Leading zeros. -/

/-- R180: the low `w` bits of `v` begin with `k` zeros, and no more. -/
def LeadingZeros (w v k : Nat) : Prop :=
  k ≤ w ∧ v % 2 ^ w < 2 ^ (w - k) ∧ (k < w → 2 ^ (w - 1 - k) ≤ v % 2 ^ w)

/-- A number fits in `k` bits when it is below `2 ^ k`. -/
theorem bitLen_le {n k : Nat} : bitLen n ≤ k ↔ n < 2 ^ k := by
  unfold bitLen
  split
  · next h => simp [h]
  · next h => exact Nat.log2_lt h

theorem leadingZeros_clzN (w v : Nat) : LeadingZeros w v (clzN w v) := by
  have hsub : w - clzN w v = bitLen (v % 2 ^ w) := Nat.sub_sub_self (bitLen_le.2 (Nat.mod_lt _ (by positivity)))
  refine ⟨Nat.sub_le _ _, ?_, fun hlt => ?_⟩
  · rw [hsub, ← bitLen_le]
  · rw [← Nat.not_lt, ← bitLen_le]
    omega

/-- R180: the word that CLZ and CLZW write. -/
theorem leadingZeros_w64_clzN (v : Nat) {w : Nat} (hw : w ≤ 64) : LeadingZeros w v (w64 (clzN w v)).toNat := by
  have h := leadingZeros_clzN w v
  have hle : clzN w v ≤ w := h.1
  rwa [toNat_w64_of_lt (by omega)]

/-! Trailing zeros. -/

/-- R180: the low `w` bits of `a` end in `k` zeros, and no more. -/
def TrailingZeros (w : Nat) (a : Word64) (k : Nat) : Prop :=
  k ≤ w ∧ (∀ i < k, a.getLsbD i = false) ∧ (k < w → a.getLsbD k = true)

/-- The search for the lowest set bit stops there, or at `w` where there is none. -/
theorem trailingZeros_ctzN (w : Nat) (a : Word64) : TrailingZeros w a (ctzN w a.toNat) := by
  simp only [ctzN, bit_toNat]
  cases h : (List.range w).find? fun i => a.getLsbD i with
  | none => exact ⟨le_rfl, by simpa using h, fun hlt => absurd hlt (lt_irrefl w)⟩
  | some k =>
    obtain ⟨hset, hk, hlow⟩ := List.find?_range_eq_some.1 h
    exact ⟨(List.mem_range.1 hk).le, by simpa using hlow, fun _ => hset⟩

/-- R180: the word that CTZ and CTZW write. -/
theorem trailingZeros_w64_ctzN (a : Word64) {w : Nat} (hw : w ≤ 64) : TrailingZeros w a (w64 (ctzN w a.toNat)).toNat := by
  have h := trailingZeros_ctzN w a
  have hle : ctzN w a.toNat ≤ w := h.1
  rwa [toNat_w64_of_lt (by omega)]

/-! Set bits. -/

/-- R180: the word that POPC and POPCW write. -/
theorem toNat_w64_popcN (a : Word64) {w : Nat} (hw : w ≤ 64) :
    (w64 (popcN w a.toNat)).toNat = ((List.range w).filter fun i => a.getLsbD i).length := by
  have hle := List.length_filter_le (fun i => a.getLsbD i) (List.range w)
  rw [List.length_range] at hle
  simp only [popcN, bit_toNat]
  exact toNat_w64_of_lt (by omega)

/-! Numbers from bytes. -/

/-- The lowest byte, and the rest above it. -/
theorem ofBytes_succ (n : Nat) (f : Nat → Nat) :
    ofBytes (n + 1) f = f 0 % 256 + 256 * ofBytes n fun i => f (i + 1) := by
  have hshift (i : Nat) : f (i + 1) % 256 * 2 ^ (8 * (i + 1)) = 256 * (f (i + 1) % 256 * 2 ^ (8 * i)) := by
    rw [Nat.mul_succ, Nat.pow_add]
    ring
  simp [ofBytes, List.range_succ_eq_map, Function.comp_def, hshift, List.sum_map_mul_left]

/-- Byte `i` of a number made of bytes is the one given, and 0 past the last. -/
theorem byte_ofBytes (n : Nat) (f : Nat → Nat) (i : Nat) :
    ofBytes n f / 256 ^ i % 256 = if i < n then f i % 256 else 0 := by
  induction n generalizing f i with
  | zero => simp [ofBytes]
  | succ n ih =>
    rw [ofBytes_succ]
    cases i with
    | zero => simp
    | succ i =>
      have hdiv : (f 0 % 256 + 256 * ofBytes n fun j => f (j + 1)) / 256 = ofBytes n fun j => f (j + 1) := by omega
      rw [Nat.pow_succ', ← Nat.div_div_eq_div_mul, hdiv, ih]
      simp

/-- R180: byte `i` of the word that a byte reversal writes. -/
theorem byte_bswapN (n : Nat) (a : Word64) {i : Nat} (h : i < 8) :
    (bswapN n a).toNat / 256 ^ i % 256 = if i < n then a.toNat / 256 ^ (n - 1 - i) % 256 else 0 := by
  rw [bswapN, byte_w64 _ h, byte_ofBytes, bits_byte, Nat.mod_mod]

/-- R182: byte `i` of the word that BPERM writes, by nibble `i` of rb. -/
theorem byte_bpermVal (a b : Word64) {i : Nat} (h : i < 8) :
    (bpermVal a b).toNat / 256 ^ i % 256 =
      if 8 ≤ b.toNat / 2 ^ (4 * i) % 16 then 0 else a.toNat / 256 ^ (b.toNat / 2 ^ (4 * i) % 16) % 256 := by
  have hnibble : bits b.toNat (4 * i) 4 = b.toNat / 2 ^ (4 * i) % 16 := rfl
  rw [bpermVal, byte_w64 _ h, byte_ofBytes, if_pos h]
  simp only [hnibble, bits_byte]
  split
  · rfl
  · exact Nat.mod_mod _ _

/-! Issue. -/

/-- R180, R206: a PARSE instruction that is not reserved and that nothing holds writes its function of ra, rb and rd in this cc. -/
theorem parseShape_of_canIssue (s : State) (code : Nat) (one rdIn : Bool) (op : Word64 → Word64 → Word64 → Word64) (g : CellId)
    (f : RFmt) (hhi : f.hi = 0) (hrb : one = true → f.rb = 0)
    (h : s.canIssue g (usesS ([f.ra] ++ (if one then [] else [f.rb]) ++ (if rdIn then [f.rd] else [])) f.rd 1) = true) :
    parseShape code one rdIn op g f s =
      (s.putS g f.rd (op ((s.cell g).pil.readS f.ra) ((s.cell g).pil.readS f.rb) ((s.cell g).pil.readS f.rd))).retired g := by
  have hlegal : (f.hi != 0 || (one && f.rb != 0)) = false := by
    cases one with
    | false => simp [hhi]
    | true => simp [hhi, hrb rfl]
  rw [parseShape, hlegal]
  exact State.issueInt_one s g _ _ _ _ h

/-- The same of an instruction that has rb = 0 and does not read rd, given its meaning. -/
theorem exec_parse_ra {g : CellId} {f : RFmt} {s : State} {i : Instr} {code : Nat} {op : Word64 → Word64 → Word64 → Word64}
    (hi : exec i s = .next (parseShape code true false op g f s)) (hhi : f.hi = 0) (hrb : f.rb = 0)
    (h : s.canIssue g (usesS [f.ra] f.rd 1) = true) :
    exec i s = .next ((s.putS g f.rd
      (op ((s.cell g).pil.readS f.ra) ((s.cell g).pil.readS f.rb) ((s.cell g).pil.readS f.rd))).retired g) :=
  hi.trans (congrArg _ (parseShape_of_canIssue s code true false op g f hhi (fun _ => hrb) h))

/-- R182: BPERM, where nothing holds it. -/
theorem exec_bperm {g : CellId} {f : RFmt} {s : State} (hhi : f.hi = 0) (h : s.canIssue g (usesS [f.ra, f.rb] f.rd 1) = true) :
    exec (.bperm g f) s =
      .next ((s.putS g f.rd (bpermVal ((s.cell g).pil.readS f.ra) ((s.cell g).pil.readS f.rb))).retired g) :=
  congrArg _ (parseShape_of_canIssue s 0x8 false false (fun a b _ => bpermVal a b) g f hhi (by simp) h)

/-- Settles O10: each instruction is a PARSE that nothing holds, and its result function computes what the statement says of the word. -/
theorem countAndPermuteResults : Obligations.CountAndPermuteResults := by
  intro g f s hhi a b byte wrote lead trail ones swap
  refine ⟨fun hrb h => ?_, fun h => ⟨_, exec_bperm hhi h, fun i hi => byte_bpermVal a b hi⟩⟩
  simp only [List.forall_mem_cons, List.not_mem_nil, IsEmpty.forall_iff, implies_true, and_true]
  exact ⟨⟨_, exec_parse_ra rfl hhi hrb h, leadingZeros_w64_clzN a.toNat (by decide)⟩,
    ⟨_, exec_parse_ra rfl hhi hrb h, leadingZeros_w64_clzN a.toNat (by decide)⟩,
    ⟨_, exec_parse_ra rfl hhi hrb h, trailingZeros_w64_ctzN a (by decide)⟩,
    ⟨_, exec_parse_ra rfl hhi hrb h, trailingZeros_w64_ctzN a (by decide)⟩,
    ⟨_, exec_parse_ra rfl hhi hrb h, toNat_w64_popcN a (by decide)⟩,
    ⟨_, exec_parse_ra rfl hhi hrb h, toNat_w64_popcN a (by decide)⟩,
    ⟨_, exec_parse_ra rfl hhi hrb h, fun _ hi => byte_bswapN 2 a hi⟩,
    ⟨_, exec_parse_ra rfl hhi hrb h, fun _ hi => byte_bswapN 4 a hi⟩,
    ⟨_, exec_parse_ra rfl hhi hrb h, fun _ hi => byte_bswapN 8 a hi⟩⟩

end Sys2Proof.Machine
end

section
/-! SUPPORT. Proofs about the pilot's control transfers (R172, R203): where a transfer that nothing holds leaves the pilot. -/

namespace Sys2Proof.Machine

/-! Targets. -/

/-- A word offset, sign-extended and then taken times 4, is four times its value. -/
theorem signExtend_mul_four {w : Nat} (i : BitVec w) : i.signExtend 64 * 4 = BitVec.ofInt 64 (4 * i.toInt) := by
  rw [BitVec.ofInt_mul, BitVec.signExtend, BitVec.mul_comm]
  rfl

/-- R172: the target of a branch. -/
theorem branchTo_eq (pc : Word64) (imm : BitVec 16) : branchTo pc imm = pc + BitVec.ofInt 64 (4 * imm.toInt) :=
  congrArg (pc + ·) (signExtend_mul_four imm)

/-! Ends. -/

/-- R203: an instruction that ends in a taken transfer, and that has not touched the clocks, has jumped. -/
theorem State.finish_jump {s s' : State} (g : CellId) (insn : Word32) (to' : Word64) (h : s'.clk = s.clk) :
    s.finish g insn (.ok s' takenDelay (some to') 5) = s'.jumped g fun _ => to' := by
  simp only [State.finish, State.jumped, takenDelay, h]

/-- R172, R203: a branch that nothing holds jumps where its condition holds, and else the next word follows. -/
theorem branchShape_of_canIssue (s : State) (op : Nat) (cond : Word64 → Word64 → Bool) (g : CellId) (f : BFmt)
    (h : s.canIssue g { Uses.none' with s := [f.ra, f.rb] } = true) :
    branchShape op cond g f s =
      if cond ((s.cell g).pil.readS f.ra) ((s.cell g).pil.readS f.rb)
      then s.jumped g fun _ => (s.cell g).pil.pc + BitVec.ofInt 64 (4 * f.imm.toInt)
      else s.retired g := by
  rw [branchShape, State.issue_of_canIssue _ _ _ _ _ _ h (Nat.zero_le _)]
  cases hc : cond ((s.cell g).pil.readS f.ra) ((s.cell g).pil.readS f.rb) with
  | true =>
    simp only [hc, if_true]
    rw [State.finish_jump g _ _ rfl, branchTo_eq]
  | false =>
    simp only [hc, Bool.false_eq_true, if_false]
    rfl

/-- The same of a branch instruction, given its meaning and what its condition says. -/
theorem exec_branch {g : CellId} {f : BFmt} {s : State} {i : Instr} {op : Nat} {cond : Word64 → Word64 → Bool} {P : Prop}
    (h : s.canIssue g { Uses.none' with s := [f.ra, f.rb] } = true) (hi : exec i s = .next (branchShape op cond g f s))
    (hP : cond ((s.cell g).pil.readS f.ra) ((s.cell g).pil.readS f.rb) = true ↔ P) :
    (P → exec i s = .next (s.jumped g fun _ => (s.cell g).pil.pc + BitVec.ofInt 64 (4 * f.imm.toInt))) ∧
      (¬ P → exec i s = .next (s.retired g)) := by
  rw [hi, branchShape_of_canIssue s op cond g f h, ← hP]
  exact ⟨fun hc => by rw [if_pos hc], fun hc => by rw [if_neg hc]⟩

/-- R172: JAL, where nothing holds it. -/
theorem exec_jal {g : CellId} {f : JFmt} {s : State} (h : s.canIssue g (usesS [] 1 1) = true) :
    exec (.jal g f) s = .next ((s.putS g 1 ((s.cell g).pil.pc + 4)).jumped g fun _ =>
      (s.cell g).pil.pc + BitVec.ofInt 64 (4 * f.imm.toInt)) := by
  change execJal g f s = _
  rw [execJal, State.issue_of_canIssue _ _ _ _ _ _ h (Nat.zero_le _), State.finish_jump g _ _ (State.updCell_clk ..),
    signExtend_mul_four]
  rfl

/-- R172: JALR, where nothing holds it. -/
theorem exec_jalr {g : CellId} {f : IFmt} {s : State} (h : s.canIssue g (usesS [f.ra] f.rd 1) = true) :
    exec (.jalr g f) s = .next ((s.putS g f.rd ((s.cell g).pil.pc + 4)).jumped g fun _ =>
      ((s.cell g).pil.readS f.ra + f.imm.signExtend 64) &&& ~~~3) := by
  change execJalr g f s = _
  rw [execJalr, State.issue_of_canIssue _ _ _ _ _ _ h (Nat.zero_le _), State.finish_jump g _ _ (State.updCell_clk ..)]
  rfl

/-- Settles O12: each branch by its condition, and the two jumps. -/
theorem branchAndJumpResults : Obligations.BranchAndJumpResults := by
  intro g s pc
  refine ⟨fun f h => ?_, fun f h => exec_jal h, fun f h => exec_jalr h⟩
  simp only [List.forall_mem_cons, List.not_mem_nil, IsEmpty.forall_iff, implies_true, and_true]
  exact ⟨exec_branch h rfl beq_iff_eq, exec_branch h rfl bne_iff_ne, exec_branch h rfl BitVec.slt_iff_toInt_lt,
    exec_branch h rfl (by simp [BitVec.slt]), exec_branch h rfl BitVec.ult_iff_lt,
    exec_branch h rfl (by simp [BitVec.ult])⟩

end Sys2Proof.Machine
end
